-- ==== Sys2Proof/Word.lean ====
section
/-! DEFINITION. The plainest types: a byte of a block, the three colours, a value per colour. -/

namespace Sys2Proof

/-- One byte of a block on the link (R2). -/
abbrev Byte := BitVec 8

/-- The three colours, in the order red, green, blue (00_scope.md, Conventions). -/
inductive Colour where
  | red | green | blue
deriving DecidableEq, Repr

/-- One value for each colour. -/
structure PerColour (α : Type) where
  red : α
  green : α
  blue : α
deriving DecidableEq, Repr

/-- One value for all three colours. -/
def PerColour.all {α : Type} (a : α) : PerColour α := ⟨a, a, a⟩

/-- A colour's value. -/
def PerColour.get {α : Type} (p : PerColour α) : Colour → α
  | .red => p.red
  | .green => p.green
  | .blue => p.blue

/-- The values with one colour's replaced. -/
def PerColour.set {α : Type} (p : PerColour α) (c : Colour) (a : α) : PerColour α :=
  match c with
  | .red => ⟨a, p.green, p.blue⟩
  | .green => ⟨p.red, a, p.blue⟩
  | .blue => ⟨p.red, p.green, a⟩

/-- The values a function gives for each colour. -/
def PerColour.of {α : Type} (f : Colour → α) : PerColour α := ⟨f .red, f .green, f .blue⟩

/-- A function applied to each colour's value. -/
def PerColour.map {α β : Type} (f : α → β) (p : PerColour α) : PerColour β :=
  ⟨f p.red, f p.green, f p.blue⟩

/-- The values as a list, in colour order. -/
def PerColour.list {α : Type} (p : PerColour α) : List α := [p.red, p.green, p.blue]

/-- The two classes of control block: COMMAND and TABLE (R11, R20). -/
inductive ControlKind where
  | command | table
deriving DecidableEq, Repr

end Sys2Proof
end

