-- ==== Sys2Proof/Config.lean ====
section
/-! DEFINITION. What the part fixes: the capacities of 00_scope.md and the chapters, and the free values
that the manual leaves open (constants with no body). -/

namespace Sys2Proof.Config

/-- Reference-clock counts of one step of the millisecond timebase (R118). -/
def countsPerMs : Nat := 100000
/-- Counts without a transition that make a link break (R8). -/
def breakCounts : Nat := 100000
/-- Reference-clock counts between two samples of the perforation, pin, stage done and interlock inputs (R168, R183). -/
def samplePeriod : Nat := 100
/-- Consecutive samples that make a change of a filtered input (R119, R168, R183). -/
def filterSamples : Nat := 4
/-- Largest block length (R2). -/
def maxLength : Nat := 4800
/-- Command FIFO depth (R20). -/
def fifoDepth : Nat := 8
/-- Outbound queue depth (R13). -/
def outboundDepth : Nat := 32
/-- Largest occupancy at which a control block may begin execution (R14). -/
def executeLimit : Nat := 23
/-- Records and waiting reports the Frame Queue holds together (R79, R88). -/
def frameRecords : Nat := 4
/-- Line slots (R99). -/
def lineSlots : Nat := 40
/-- HOLD is asserted at this many FREE slots or fewer (R19). -/
def holdAssert : Nat := 6
/-- HOLD is released at this many FREE slots or more (R19). -/
def holdRelease : Nat := 10
/-- Pixels of a full segment (R104). -/
def segmentPixels : Nat := 1024
/-- CDT entries of a slot (R36). -/
def cdtEntries : Nat := 12288
/-- Entries of a colour's compiled table (R58). -/
def codeValues : Nat := 4096
/-- Positions of a written line beyond the frame's width (R141). -/
def extraPositions : Nat := 63
/-- Ticks of a pixel period (R139). -/
def ticksPerPixel : Nat := 256
/-- Pixel periods of a nominal facet period (R139). -/
def pixelsPerFacet : Nat := 5120
/-- The parts of a reference-clock count in which moments are held, 1310720: the 5120 pixel periods of a facet times the
256 ticks of each, so that a tick is N parts long (R139; log entry 26). -/
def partsPerCount : Nat := pixelsPerFacet * ticksPerPixel
/-- Start of the monitor window, in pixel periods after the edge (R147). -/
def monitorOpens : Nat := 4672
/-- End of the monitor window, in pixel periods after the edge (R147). -/
def monitorCloses : Nat := 4928
/-- In-band facet periods that lock the polygon (R120). -/
def lockRun : Nat := 64
/-- Accepted edges of a good revolution (R126). -/
def facets : Nat := 10
/-- Largest value of the edge run (R125). -/
def edgeRunMax : Nat := 12
/-- FIRED pulses of a reference capture and of a measurement step (R155, R163). -/
def captureSamples : Nat := 64
/-- Samples of a drift update (R160). -/
def driftSamples : Nat := 16
/-- Home timeout of the gate stage, in ms (R167). -/
def homeTimeout : Nat := 500
/-- Step timeout of the gate stage, in ms (R167). -/
def stepTimeout : Nat := 20
/-- Largest stage position (R178). -/
def stageMax : Nat := 3215

/-- FREE VALUE (DESIGN CHOICE, log entry 13): the stage position while the stage homes from UNKNOWN.
R167 has a position present except in UNKNOWN and no rule gives this one; its range is 0..3215. -/
opaque openStagePosition : Nat → Fin 3216

/-- FREE VALUE (DESIGN CHOICE, log entry 27): the reference-clock counts that a compile takes; R49 says only that it
ends within 2 ms of its start. -/
opaque openCompileTime : Nat → Fin 200001

/-- FREE VALUE (DESIGN CHOICE, log entry 14): the start shift, less its lowest value of -128, of a facet
numbered 10 or more, for which the facet table has no record (R125, R127, R128). -/
opaque openStartShift : Nat → Fin 256

/-- FREE VALUE (DESIGN CHOICE, log entry 14): the power trims, less their lowest value of -40, of a facet
numbered 10 or more, for which the facet table has no record (R125, R127, R128). -/
opaque openFacetTrim : Nat → Colour → Fin 81

end Sys2Proof.Config
end

