-- ==== Sys2Proof/Syntax.lean ====
section
/-! DEFINITION. The commands of the part: one constructor for each row of spec/opcode_table.json.

A row that the inputs bring about carries `seen`, what they bring next: data bytes and idle symbols of the inbound
lane, levels of the sensors, the end of a block on the outbound lane (log entry 2); its other operands say which event it
is, and it takes effect where the inputs bear it out. A row that is the execution of a
control block carries no operand: the block stands at the head of the command FIFO, and its payload holds the tag,
the code and the arguments (R21, R191; log entry 4). A row that is a timer's end takes its moment from the timer. -/

namespace Sys2Proof

/-- What reaches the inputs of the part at one moment. -/
inductive Input where
  /-- A data byte ends on the inbound lane (R1). -/
  | data (b : Byte)
  /-- An idle symbol ends on the inbound lane (R1). -/
  | idle
  /-- A level transition on the inbound lane that ends no symbol (R1, R8). -/
  | transition
  /-- Nothing: time passes. -/
  | quiet
  /-- The last byte of the CRC of the block being sent ends on the outbound lane (R13). -/
  | sent
  /-- The beam-detect input takes its active or its inactive level (R119). -/
  | beam (active : Bool)
  /-- The polygon index input takes its active or its inactive level (R119). -/
  | index (active : Bool)
  /-- The perforation sensor takes its active or its inactive level (R168). -/
  | perf (active : Bool)
  /-- The pin engaged sensor shows engaged or not engaged (R168). -/
  | pin (engaged : Bool)
  /-- The stage done line takes its active or its inactive level (R168). -/
  | stageDone (active : Bool)
  /-- The gate interlock input shows closed or open (R183). -/
  | interlock (closed : Bool)
deriving DecidableEq, Repr

/-- What the inputs bring, in order: the reference-clock counts that pass before each input, and the input. The first is
timed from what was brought before it (log entry 2). -/
abbrev Trace := List (Nat × Input)

inductive Instr where
  /-- POWER_ON (R34). -/
  | powerOn
  /-- MARKER_FOUND (R5): a marker, with this kind and length after it, has been received in HUNT. -/
  | markerFound (seen : Trace) (kind : Byte) (length : Nat)
  /-- BLOCK_CRC_FAILURE (R6). -/
  | blockCrcFailure (seen : Trace)
  /-- CRC_FAILURE_LIMIT (R6). -/
  | crcFailureLimit
  /-- SYNC_SLIP (R7). -/
  | syncSlip (seen : Trace)
  /-- LENGTH_ERROR (R7). -/
  | lengthError (seen : Trace)
  /-- LINK_BREAK (R8). -/
  | linkBreak (seen : Trace)
  /-- BREAK_END (R8). -/
  | breakEnd (seen : Trace)
  /-- UNKNOWN_KIND (R9): a good block of this kind, none of the five inbound kinds, has been received. -/
  | unknownKind (seen : Trace) (kind : Byte)
  /-- FRAME (R79): a good FRAME block with this payload has been received. -/
  | frame (seen : Trace) (payload : List Byte)
  /-- LINE (R103): a good LINE block with this payload has been received. -/
  | line (seen : Trace) (payload : List Byte)
  /-- FEND (R109): a good FEND block with this payload has been received. -/
  | fend (seen : Trace) (payload : List Byte)
  /-- CONTROL_BLOCK (R20): a good COMMAND or TABLE block with this payload has been received. -/
  | controlBlock (seen : Trace) (kind : ControlKind) (payload : List Byte)
  /-- TABLE_BLOCK (R43): the TABLE block at the head of the FIFO is executed. -/
  | tableBlock
  /-- SHORT_COMMAND (R22): a COMMAND block shorter than 3 bytes is executed. -/
  | shortCommand
  /-- UNKNOWN_COMMAND (R22): a COMMAND block whose code names no command is executed. -/
  | unknownCommand
  /-- IDENTIFY (R31). -/
  | identify
  /-- READ_STATUS (R30). -/
  | readStatus
  /-- CLEAR_STATUS (R29). -/
  | clearStatus
  /-- RESET_UNIT (R32). -/
  | resetUnit
  /-- TABLE_OPEN (R40). -/
  | tableOpen
  /-- TABLE_CLOSE (R45). -/
  | tableClose
  /-- READ_SLOT (R53). -/
  | readSlot
  /-- SET_TRIM (R73). -/
  | setTrim
  /-- ABORT_FRAME (R93). -/
  | abortFrame
  /-- FLUSH_QUEUE (R94). -/
  | flushQueue
  /-- RELEASE_QUEUE (R95). -/
  | releaseQueue
  /-- POLYGON_START (R122). -/
  | polygonStart
  /-- POLYGON_STOP (R123). -/
  | polygonStop
  /-- SET_POLYGON (R124). -/
  | setPolygon
  /-- SET_FACETS (R128). -/
  | setFacets
  /-- SET_LINE_GEOMETRY (R129). -/
  | setLineGeometry
  /-- SET_LINE_WAIT (R136). -/
  | setLineWait
  /-- SET_PULSE_GEOMETRY (R149). -/
  | setPulseGeometry
  /-- LASER_ON (R153). -/
  | laserOn
  /-- LASER_OFF (R156). -/
  | laserOff
  /-- SET_LASER_SETUP (R157). -/
  | setLaserSetup
  /-- MEASURE_LADDER (R162). -/
  | measureLadder
  /-- ADVANCE (R175). -/
  | advance
  /-- TRANSPORT_CLEAR (R174). -/
  | transportClear
  /-- SET_TRANSPORT (R176). -/
  | setTransport
  /-- BLANK_RESUME (R188). -/
  | blankResume
  /-- SET_BLANK_SOURCES (R187). -/
  | setBlankSources
  /-- TRANSMISSION_BEGINS (R13). -/
  | transmissionBegins
  /-- ENTRY_SENT (R13): the block being sent has gone out. -/
  | entrySent (seen : Trace)
  /-- REPORT_GRANTED (R88). -/
  | reportGranted
  /-- NOTICE_GRANTED (R16). -/
  | noticeGranted
  /-- COMPILE_END (R49) of a slot. -/
  | compileEnd (seen : Trace) (slot : Fin 2)
  /-- POSITIONING_START (R84). -/
  | positioningStart
  /-- EXPOSURE_START (R86). -/
  | exposureStart
  /-- BEAM_DETECT_EDGE (R119): a filtered beam-detect edge. -/
  | beamDetectEdge (seen : Trace)
  /-- PERIOD_OVERRUN (R121). -/
  | periodOverrun
  /-- ACQUIRE_TIMEOUT (R120). -/
  | acquireTimeout
  /-- POLYGON_LOCK (R120). -/
  | polygonLock
  /-- POLYGON_INDEX (R125): a filtered index indication. -/
  | polygonIndex (seen : Trace)
  /-- FACET_SYNC_GAINED (R126). -/
  | facetSyncGained
  /-- EDGE_RUN_OVERFLOW (R127). -/
  | edgeRunOverflow
  /-- LINE_COMPLETE (R135). -/
  | lineComplete
  /-- LINE_WAIT_EXPIRY (R136). -/
  | lineWaitExpiry
  /-- MONITOR_WINDOW_START (R147). -/
  | monitorWindowStart
  /-- MONITOR_WINDOW_END (R147), with each colour's averaged monitor input on the scale of 1 mL a step,
  before the limits of R151. -/
  | monitorWindowEnd (average : PerColour Int)
  /-- WARM_UP_END (R154) of a colour. -/
  | warmUpEnd (c : Colour)
  /-- CAPTURE_COMPLETE (R155) of a colour. -/
  | captureComplete (c : Colour)
  /-- DRIFT_UPDATE (R160) of a colour. -/
  | driftUpdate (c : Colour)
  /-- MEASUREMENT_STEP_COMPLETE (R163). -/
  | measurementStepComplete
  /-- PERF_EDGE (R171). -/
  | perfEdge (seen : Trace)
  /-- PERF_COUNT_ZERO (R171). -/
  | perfCountZero
  /-- PERF_TIMEOUT (R171). -/
  | perfTimeout
  /-- SETTLE_END (R172). -/
  | settleEnd (seen : Trace)
  /-- PIN_DISENGAGED (R172). -/
  | pinDisengaged (seen : Trace)
  /-- HOMING_DONE (R177). -/
  | homingDone (seen : Trace)
  /-- STEP_DONE (R178). -/
  | stepDone (seen : Trace)
  /-- STAGE_TIMEOUT (R179). -/
  | stageTimeout
  /-- INTERLOCK_OPEN (R183). -/
  | interlockOpen (seen : Trace)
  /-- INTERLOCK_CLOSED (R183). -/
  | interlockClosed (seen : Trace)
deriving DecidableEq, Repr

end Sys2Proof
end

