-- ==== Sys2Proof/WellFormed.lean ====
section
/-! DEFINITION. The commands that the inputs can bring: an entry of a trace that brings no input is a stretch of time,
so it passes one reference-clock count or more (log entry 2); a block's payload is within 0..4800 bytes (R2), a length
field is two bytes (12_formats.md, 12.2), and the row UNKNOWN_KIND is about none of the five inbound kinds (R9).
Operands of every other row are unconstrained. -/

namespace Sys2Proof

/-- The five inbound kinds FRAME, LINE, FEND, COMMAND, TABLE (12_formats.md, 12.2). -/
def inboundKinds : List Byte := [0x10, 0x11, 0x12, 0x20, 0x21]

/-- An entry of a trace brings an input, or passes time. -/
def inputWf (e : Nat × Input) : Bool :=
  match e.2 with
  | .quiet => decide (1 ≤ e.1)
  | _ => true

/-- A trace that the inputs can bring. -/
def traceWf (seen : Trace) : Bool := seen.all inputWf

/-- A command whose operands the inputs of the part can bring. -/
def Instr.wf : Instr → Bool
  | .markerFound seen _ length => traceWf seen && decide (length < 65536)
  | .unknownKind seen kind => traceWf seen && !inboundKinds.contains kind
  | .frame seen payload | .line seen payload | .fend seen payload | .controlBlock seen _ payload =>
      traceWf seen && decide (payload.length ≤ Config.maxLength)
  | .blockCrcFailure seen | .entrySent seen | .syncSlip seen | .lengthError seen | .linkBreak seen | .breakEnd seen
  | .compileEnd seen _ | .beamDetectEdge seen | .polygonIndex seen | .perfEdge seen | .settleEnd seen
  | .pinDisengaged seen | .homingDone seen | .stepDone seen | .interlockOpen seen | .interlockClosed seen =>
      traceWf seen
  | _ => true

end Sys2Proof
end

