-- ==== Sys2Proof/Decode.lean ====
section
/-! DEFINITION. The word decoder of the host's questions. No row of spec/opcode_table.json gives bits
(every row's "fields" is empty and none has "fixed"), so no word spells a command. The byte layouts of
Chapter 12 are decoded in Sys2Proof/Machine/Operands.lean and the meanings. -/

namespace Sys2Proof

/-- The command that a word spells by the table's bits: none, since the table gives no row bits. -/
def decodeTableWord (_nbits _w : Nat) : Option Instr := none

end Sys2Proof
end

