-- ==== Sys2Proof/Machine/State.lean ====
section
/-! DEFINITION. The state of the part as plain data, one structure for each of its twelve blocks, and its
values at power-on. A moment is held in parts of a reference-clock count, 1310720 to the count, which resolve every tick
(R139; log entry 26); a millisecond timer holds the timebase value at which
it started, or none while it is stopped. -/

namespace Sys2Proof.Machine

open Sys2Proof

/-! ## Link Receiver (Chapter 1) -/

/-- Link state, in the order of R4. -/
inductive LinkState where
  | hunt | synced | broken
deriving DecidableEq, Repr

/-- The LRX's state (R4). `buffer` is the data bytes heard and not yet consumed: in HUNT those in which a marker may
still be found, in SYNCED those from the first byte after the last block on (R5 to R7); `stirred` says that the lane
has shown a transition since entry into BREAK, and `lastTransition` is the start of the break timer (R8). -/
structure Lrx where
  link : LinkState
  buffer : List Byte
  stirred : Bool
  crcRun : Nat
  lastTransition : Nat
  streamDispatched : Nat
  controlDispatched : Nat
  crcFailures : Nat
  syncSlips : Nat
  lengthErrors : Nat
  unknownKinds : Nat
  breaks : Nat
  blocksCut : Nat
deriving DecidableEq, Repr

/-! ## Values that the status conditions carry (Chapter 2) -/

/-- Polygon state, in the order of R26. -/
inductive PolygonState where
  | stopped | acquiring | locked
deriving DecidableEq, Repr

/-- Facet sync (R126), numbered as in 12.5. -/
inductive FacetSync where
  | hunt | synced
deriving DecidableEq, Repr

/-- Transport state, in the order of R167. -/
inductive TransportState where
  | unregistered | advancing | settling | registered | fault
deriving DecidableEq, Repr

/-- Fault cause (R167). -/
inductive FaultCause where
  | stall | pin | stage
deriving DecidableEq, Repr

/-- Laser channel state, in the order of R150. -/
inductive ChannelState where
  | off | warming | capturing | ready
deriving DecidableEq, Repr

/-- Result of a ladder measurement (R164, R165); a rejection comes with the colour that failed. -/
inductive MeasureResult where
  | accepted
  | rejectedOrder (c : Colour)
  | rejectedSpacing (c : Colour)
  | abandoned
deriving DecidableEq, Repr

/-- Value of the MEASUREMENT condition (R26). -/
inductive MeasurementValue where
  | idle
  | running (slot : Fin 2)
  | result (r : MeasureResult) (slot : Fin 2)
deriving DecidableEq, Repr

/-- A cause set: a bitmap in the order of R182, INTERLOCK to RESET in bits 0 to 7 (R190). -/
abbrev CauseSet := BitVec 8

/-- A source set: a bitmap, INTERLOCK, POLYGON, SYNC, TRANSPORT, DRIFT, LINK in bits 0 to 5 (R190). -/
abbrev SourceSet := BitVec 6

/-- A condition set: a bitmap, the thirteen conditions of R26 in bits 0 to 12 (R190). -/
abbrev CondSet := BitVec 13

/-- The values of the thirteen conditions of R26. -/
structure Conditions where
  link : LinkState
  blankLatch : Bool
  blankCauses : CauseSet
  polygon : PolygonState
  acquireFault : Bool
  facetSync : FacetSync
  transport : TransportState
  faultCause : Option FaultCause
  lasers : PerColour ChannelState
  drift : PerColour Bool
  held : Bool
  measurement : MeasurementValue
  lineOverrun : Nat
  controlOverrun : Nat
  controlError : Nat
  frameStarted : Nat
  startedFsn : Option Nat
deriving DecidableEq, Repr

/-! ## Outbound blocks (Chapters 1, 2, 5, 12) -/

/-- Result codes of a REPLY, in the order of 12.5. -/
inductive ResultCode where
  | ok | clamped | refused | curveCount | curveOrder | ladderCount | ladderOrder | ladderSpacing
deriving DecidableEq, Repr

/-- Reasons of a refusal, numbered from 1 in this order (12.5). -/
inductive Reason where
  | busy | badState | badArgument | slotPinned | slotNotValid | noSession | triggerActive | notFound
  | queueFull | duplicateFsn | listSum | notOpen
deriving DecidableEq, Repr

/-- A REPLY (R23, R25): `stream` tells the refusal of a stream block from a command's answer. -/
structure Reply where
  stream : Bool
  tag : Nat
  code : Nat
  result : ResultCode
  reason : Option Reason
  data : List Byte
deriving DecidableEq, Repr

/-- A NOTICE (R28): the changed set, the latch flags and the snapshot. -/
structure Notice where
  changed : CondSet
  latch : CondSet
  values : Conditions
deriving DecidableEq, Repr

/-- Exposure side of a record, in the order of R77. -/
inductive ExposureSide where
  | waiting | positioning | exposing | finished
deriving DecidableEq, Repr

/-- Data side of a record, in the order of R77. -/
inductive DataSide where
  | pending | opened | closed
deriving DecidableEq, Repr

/-- Abort causes, in the order of R90. -/
inductive AbortCause where
  | blanked | lineWait | notRegistered | transport | abortCommand | flush
deriving DecidableEq, Repr

/-- Data outcomes, in the order of R83 as 12.5 numbers them. -/
inductive DataOutcome where
  | complete | concealed | noData | aborted
deriving DecidableEq, Repr

/-- Slip counts of a frame (R131). -/
structure Slips where
  data : Nat
  stage : Nat
  sync : Nat
  laser : Nat
  blanked : Nat
deriving DecidableEq, Repr

/-- A colour's pixel counts in a report (R96). -/
structure PixelCounts where
  densityClips : Nat
  powerClips : Nat
  floorClamps : Nat
  truncations : Nat
deriving DecidableEq, Repr

/-- The setup latched at exposure start, as the report carries it (R86, R96). -/
structure LatchedSetup where
  trims : PerColour Int
  vertical : PerColour Nat
  horizontal : PerColour Nat
  startDelay : Nat
  rungGuard : Nat
deriving DecidableEq, Repr

/-- A frame report (R96). -/
structure Report where
  fsn : Nat
  tag : Nat
  slot : Fin 2
  abortCause : Option AbortCause
  sideAtAbort : Option ExposureSide
  abortLine : Option Nat
  midLine : Option Bool
  dataOutcome : DataOutcome
  complete : Nat
  partialLines : Nat
  missing : Nat
  excess : Bool
  staleLadder : Bool
  linesWritten : Nat
  scanLines : Nat
  slips : Slips
  counts : PerColour PixelCounts
  setup : Option LatchedSetup
deriving DecidableEq, Repr

/-- One outbound block (R13). -/
inductive OutBlock where
  | reply (r : Reply)
  | report (r : Report)
  | notice (n : Notice)
deriving DecidableEq, Repr

/-- One entry of the outbound queue: reserved for a REPLY still to be written, or holding a block (R13). -/
inductive OutEntry where
  | reserved
  | block (b : OutBlock)
deriving DecidableEq, Repr

/-- The RTX's state (R13, R15): the entries, oldest first, whether transmission of the oldest has begun,
and the framed bytes on the outbound lane while it has; an empty lane carries idle symbols (R1). -/
structure Rtx where
  entries : List OutEntry
  sending : Bool
  lane : List Byte
  droppedRefusals : Nat
deriving DecidableEq, Repr

/-! ## Command Processor (Chapter 2) -/

/-- A control block as the LRX hands it over: its class and its payload (R9, R20). -/
structure ControlBlock where
  kind : ControlKind
  payload : List Byte
deriving DecidableEq, Repr

/-- Reset cause (R31). -/
inductive ResetCause where
  | power | command
deriving DecidableEq, Repr

/-- The CPR's state (R20, R27, R34). -/
structure Cpr where
  fifo : List ControlBlock
  executing : Option ControlBlock
  controlOverruns : Nat
  controlErrors : Nat
  loadPointer : Option Nat
  resetCause : ResetCause
  latch : CondSet
  current : Conditions
  reported : Conditions
  waitingNotice : Option Notice
deriving DecidableEq, Repr

/-! ## Profile Store (Chapter 3) -/

/-- An addressed table in its canonical form: (index, value) pairs, indexes strictly rising, no entry equal
to what an unlisted index reads as (R35, R115: the power-on contents). -/
abbrev Table (α : Type) := List (Nat × α)

/-- Profile slot state, in the order of R35. -/
inductive SlotState where
  | empty | loading | incomplete | compiling | valid | measuring
deriving DecidableEq, Repr

/-- Table kinds, in the order of 12.4. -/
inductive TableKind where
  | cdt | sct | plt
deriving DecidableEq, Repr

/-- A slot's kinds present (R35). -/
structure Kinds where
  cdt : Bool
  sct : Bool
  plt : Bool
deriving DecidableEq, Repr

/-- A point of a stock curve (R37). -/
structure CurvePoint where
  density : Nat
  exposure : Nat
deriving DecidableEq, Repr

/-- A rung of a power ladder (R38). -/
structure Rung where
  dac : Nat
  power : Nat
deriving DecidableEq, Repr

/-- A colour's power ladder with its stamp and epoch (R38). -/
structure Ladder where
  rungs : List Rung
  stamp : Int
  epoch : Nat
deriving DecidableEq, Repr

/-- An entry of a compiled table (R58). -/
inductive Compiled where
  | base
  | level (exposure : Nat) (clip : Bool)
deriving DecidableEq, Repr

/-- The state a measured slot returns to (R52). -/
inductive PriorState where
  | valid | incomplete
deriving DecidableEq, Repr

/-- A profile slot's record (R35). `compileEnds` is the moment at which a running compile ends (R49). -/
structure ProfileSlot where
  state : SlotState
  kinds : Kinds
  cdt : Table Nat
  sct : PerColour (List CurvePoint)
  plt : PerColour Ladder
  compiled : PerColour (Table Compiled)
  compiledCurrent : Bool
  prior : Option PriorState
  compileEnds : Option Nat
  pins : Nat
deriving DecidableEq, Repr

/-- The open load session (3.3): its slot, kind and four counts. -/
structure Session where
  slot : Fin 2
  kind : TableKind
  written : Nat
  pastCapacity : Nat
  badColour : Nat
  clamped : Nat
deriving DecidableEq, Repr

/-- The PST's state: the two slots and the open session. -/
structure Pst where
  slot0 : ProfileSlot
  slot1 : ProfileSlot
  session : Option Session
deriving DecidableEq, Repr

/-! ## Frame Queue (Chapter 5) -/

/-- What a region's lines are (R78). -/
inductive RegionKind where
  | image
  | fill (codes : PerColour Nat)
  | dark
deriving DecidableEq, Repr

/-- A region of a frame (R78). -/
structure Region where
  kind : RegionKind
  lines : Nat
deriving DecidableEq, Repr

/-- The step of positioning a record has reached (R85, R86): waiting for a commanded advance, waiting for
its own advance, waiting for homing, or homed and waiting to expose. -/
inductive PositionStep where
  | waitTransport | advancing | homing | homed
deriving DecidableEq, Repr

/-- A frame record (R77). Slips and pixel counts of the exposing record stand in the STU, the lanes and the
PFM, and abort cause, abort line and mid-line in the report an abort makes. `report` is the report of a
FINISHED record, and `behind` how many reports of the backlog ended before it (R88). -/
structure FrameRecord where
  fsn : Nat
  tag : Nat
  slot : Fin 2
  width : Nat
  height : Nat
  advance : Nat
  startNotice : Bool
  regions : List Region
  dataLines : Nat
  data : DataSide
  kCur : Nat
  complete : Nat
  partialLines : Nat
  missing : Nat
  dataAborted : Bool
  exposure : ExposureSide
  step : Option PositionStep
  setup : Option LatchedSetup
  linesWritten : Nat
  excess : Bool
  staleLadder : Bool
  report : Option Report
  behind : Nat
deriving DecidableEq, Repr

/-- The FQ's state: records and backlog, oldest first (R77, R88, R92, R79). -/
structure Fq where
  records : List FrameRecord
  backlog : List Report
  held : Bool
  refused : Nat
deriving DecidableEq, Repr

/-! ## Line Store (Chapter 6) -/

/-- A pixel's code triple. -/
abbrev Pixel := PerColour Nat

/-- Line slot state, in the order of R99. -/
inductive LineState where
  | free | assembling | ready | incomplete
deriving DecidableEq, Repr

/-- A line slot (R99). `segments` has one place for each segment expected; a place that is not none is a
segment present, with its codes. -/
structure LineSlot where
  state : LineState
  fsn : Option Nat
  k : Option Nat
  segments : List (Option (List Pixel))
  lanesDone : PerColour Bool
deriving DecidableEq, Repr

/-- The LST's discard counters, by reason (R114). -/
structure Discards where
  orphan : Nat
  abortedData : Nat
  excess : Nat
  malformed : Nat
  late : Nat
  overrun : Nat
deriving DecidableEq, Repr

/-- The LST's state, with the HOLD output (R19, R99, R113, R114). -/
structure Lst where
  slots : List LineSlot
  hold : Bool
  abortedFsn : Option Nat
  discards : Discards
deriving DecidableEq, Repr

/-! ## Transfer Lanes (Chapters 4 and 6) -/

/-- A lane's source for the current line (R55). -/
inductive Source where
  | dark
  | fill (code : Nat)
  | slot (index : Nat)
  | hold
deriving DecidableEq, Repr

/-- A Transfer Lane (R55, R115), with the profile slot it took at exposure start (R57). -/
structure Lane where
  pendingTrim : Int
  trim : Int
  offset : Int
  densityClips : Nat
  powerClips : Nat
  floorClamps : Nat
  source : Source
  holdBuffer : Table (Option Nat)
  slot : Option (Fin 2)
deriving DecidableEq, Repr

/-! ## Scan Timing Unit (Chapter 7) -/

/-- A facet record (R128). -/
structure FacetRecord where
  startShift : Int
  trims : PerColour Int
deriving DecidableEq, Repr

/-- The STU's state (R138). -/
structure Stu where
  polygon : PolygonState
  motor : Bool
  acquireFault : Bool
  runCount : Nat
  acquireTimer : Option Nat
  nominal : Nat
  acquireLimit : Nat
  glitches : Nat
  lastPeriod : Nat
  lastEdge : Option Nat
  periodStart : Option Nat
  periodOverrun : Bool
  facetSync : FacetSync
  edgeRun : Nat
  goodRevs : Nat
  revOpen : Bool
  facetsPending : List FacetRecord
  facets : List FacetRecord
  verticalPending : PerColour Nat
  vertical : PerColour Nat
  lineWaitLimit : Nat
  lineWait : Option Nat
  scanCounter : Nat
  slips : Slips
  writing : Option Nat
deriving DecidableEq, Repr

/-! ## Pulse Former (Chapter 8) -/

/-- The line being placed (R140, R141): its scan line, the time of its edge, its lead-in in ticks, the
frame's width, and the number of positions whose placing has begun. -/
structure PlacedLine where
  scan : Nat
  edge : Nat
  leadIn : Nat
  width : Nat
  placed : Nat
deriving DecidableEq, Repr

/-- What a monitor pulse is for (R152); `ended` where that use has gone while the request is held (R156, R165). -/
inductive MonitorUse where
  | capture | drift | measure | ended
deriving DecidableEq, Repr

/-- A colour's part of a monitor request: its DAC code and its use (R147, R152). -/
structure MonitorShot where
  dac : Nat
  use : MonitorUse
deriving DecidableEq, Repr

/-- The monitor request (R147): the colours named, the edge it is bound to, whether its window has opened, what the
window has met: the blank latch, a line still being placed, an early edge; and the averaged inputs that were brought
before the window's end (the model's own; log entry 2). -/
structure MonitorRequest where
  shots : PerColour (Option MonitorShot)
  bound : Option Nat
  opened : Bool
  sawBlank : Bool
  sawLine : Bool
  sawEdge : Bool
  brought : Option (PerColour Int)
deriving DecidableEq, Repr

/-- A colour's part of the PFM's state (R140): `rung` is the rung in effect with its DAC code, `pulse` the
ticks of the pulse of the position being placed. -/
structure PulseLane where
  horizontalPending : Nat
  horizontal : Nat
  rung : Option (Nat × Nat)
  amplitude : Nat
  pulseOpen : Bool
  pulse : Option (Nat × Nat)
  truncations : Nat
deriving DecidableEq, Repr

/-- The PFM's state (R140). -/
structure Pfm where
  lanes : PerColour PulseLane
  startDelayPending : Nat
  startDelay : Nat
  rungGuardPending : Nat
  rungGuard : Nat
  line : Option PlacedLine
  request : Option MonitorRequest
deriving DecidableEq, Repr

/-! ## Laser Monitor (Chapter 9) -/

/-- A laser channel (R150). -/
structure Channel where
  state : ChannelState
  warmStart : Option Nat
  captureCount : Nat
  captureSum : Nat
  captureCode : Option Nat
  reference : Option Nat
  drift : Int
  epoch : Nat
  accCount : Nat
  accSum : Int
  lastMean : Option Int
  beyond : Bool
  refCode : Nat
  monitorOffset : Int
deriving DecidableEq, Repr

/-- A running ladder measurement (R162, R163). -/
structure Measurement where
  slot : Fin 2
  step : Nat
  count : PerColour Nat
  sum : PerColour Nat
  measured : PerColour (List Nat)
deriving DecidableEq, Repr

/-- The LMN's state (R150). -/
structure Lmn where
  channels : PerColour Channel
  retraceCount : Nat
  measurement : Option Measurement
  value : MeasurementValue
  warmInterval : Nat
  driftLimit : Nat
deriving DecidableEq, Repr

/-! ## Blanking Control (Chapter 11) -/

/-- The BLC's state (R182). `mask` never holds the INTERLOCK bit. -/
structure Blc where
  latch : Bool
  causes : CauseSet
  mask : SourceSet
  interlockOpen : Bool
deriving DecidableEq, Repr

/-! ## Film Transport Controller (Chapter 10) -/

/-- Advance phase (R167). -/
inductive AdvancePhase where
  | stageReturn | filmRun
deriving DecidableEq, Repr

/-- Advance origin (R167). -/
inductive AdvanceOrigin where
  | command
  | frame (fsn : Nat)
deriving DecidableEq, Repr

/-- Stage state, in the order of R167. -/
inductive StageState where
  | unknown | idle | homing | stepping
deriving DecidableEq, Repr

/-- The FTC's state (R167); the filtered pin state stands with the sensors (R168). `pinsIn` is the pin solenoid. -/
structure Ftc where
  state : TransportState
  faultCause : Option FaultCause
  phase : Option AdvancePhase
  origin : Option AdvanceOrigin
  counter : Nat
  perfTimer : Option Nat
  settleTimer : Option Nat
  motor : Bool
  pinsIn : Bool
  stage : StageState
  position : Option Nat
  stageTimer : Option Nat
  homeWaiting : Bool
  settleInterval : Nat
  perfTimeout : Nat
deriving DecidableEq, Repr

/-! ## Sensor inputs (R119, R168, R183) -/

/-- The filter of an input sampled at every count: the level it shows, the consecutive active samples that stand, up
to 4, and whether a filtered edge waits for its row (R119). -/
structure EdgeFilter where
  shown : Bool
  run : Nat
  fired : Bool
deriving DecidableEq, Repr

/-- The filter of an input sampled at every 100th count: the level it shows, the filtered level, the consecutive
samples that differ from it, and whether a change of the filtered level waits for its row (R168, R183). -/
structure LevelFilter where
  shown : Bool
  level : Bool
  run : Nat
  fired : Bool
deriving DecidableEq, Repr

/-- The inputs: beam detect and polygon index (R119), the perforation sensor, the pin engaged sensor and the stage done
line (R168), and the gate interlock, whose level is true when closed (R183), each with its filter; `sent` says that the
block being sent has gone out and waits for its row (R13); `coming` is what has been brought and has not come yet, each
input with its moment (the model's own; log entry 2). -/
structure Sensors where
  beam : EdgeFilter
  index : EdgeFilter
  perf : LevelFilter
  pin : LevelFilter
  stageDone : LevelFilter
  interlock : LevelFilter
  sent : Bool
  coming : List (Nat × Input)
deriving DecidableEq, Repr

/-! ## The whole part -/

/-- The state of the part. `pending` is the queue of commands still to be taken, `clock` the present moment, in parts of a
reference-clock count since power-on (R118, R139; log entry 26), and `free` the number of free values taken so far (the
model's own). -/
structure State where
  pending : List Instr
  clock : Nat
  free : Nat
  lrx : Lrx
  cpr : Cpr
  rtx : Rtx
  pst : Pst
  fq : Fq
  lst : Lst
  lanes : PerColour Lane
  stu : Stu
  pfm : Pfm
  lmn : Lmn
  blc : Blc
  ftc : Ftc
  sen : Sensors
deriving DecidableEq, Repr

/-- Why a step can stop with a fault: never. The part has no exception entry, and the spec gives every step
an effect in every state; what goes wrong is part of State (a transport FAULT, a link BREAK, an abort). -/
inductive Fault where
deriving DecidableEq, Repr

/-- Why a command can be refused by the model. -/
inductive Refusal where
  /-- The row with this mnemonic has no meaning yet. Raised by exec's arms alone, of which none raises it
  now; safe, since the model stops where the part would go on. -/
  | notModelled (mnemonic : String)
deriving DecidableEq, Repr

/-- The outcome of a step of this part. -/
abbrev Outcome := Host.Outcome State Fault Refusal

/-! ## Power-on values -/

/-- The LRX at power-on (R4). -/
def Lrx.initial : Lrx :=
  { link := .hunt, buffer := [], stirred := false, crcRun := 0, lastTransition := 0, streamDispatched := 0,
    controlDispatched := 0, crcFailures := 0, syncSlips := 0, lengthErrors := 0, unknownKinds := 0,
    breaks := 0, blocksCut := 0 }

/-- The condition values at power-on (R26): LINK HUNT, BLANK set with cause POWER, and so on. -/
def Conditions.initial : Conditions :=
  { link := .hunt, blankLatch := true, blankCauses := 0x40, polygon := .stopped, acquireFault := false,
    facetSync := .hunt, transport := .unregistered, faultCause := none, lasers := .all .off,
    drift := .all false, held := false, measurement := .idle, lineOverrun := 0, controlOverrun := 0,
    controlError := 0, frameStarted := 0, startedFsn := none }

/-- The CPR at power-on (R34). -/
def Cpr.initial : Cpr :=
  { fifo := [], executing := none, controlOverruns := 0, controlErrors := 0, loadPointer := none,
    resetCause := .power, latch := 0, current := .initial, reported := .initial, waitingNotice := none }

/-- The RTX at power-on (R13). -/
def Rtx.initial : Rtx := { entries := [], sending := false, lane := [], droppedRefusals := 0 }

/-- A profile slot at power-on (R35). -/
def ProfileSlot.initial : ProfileSlot :=
  { state := .empty, kinds := ⟨false, false, false⟩, cdt := [], sct := .all [], plt := .all ⟨[], 0, 0⟩,
    compiled := .all [], compiledCurrent := false, prior := none, compileEnds := none, pins := 0 }

/-- The PST at power-on (3.9). -/
def Pst.initial : Pst := { slot0 := .initial, slot1 := .initial, session := none }

/-- The FQ at power-on (R98). -/
def Fq.initial : Fq := { records := [], backlog := [], held := false, refused := 0 }

/-- A FREE line slot (R99). -/
def LineSlot.empty : LineSlot :=
  { state := .free, fsn := none, k := none, segments := [], lanesDone := .all false }

/-- The LST at power-on (R117). -/
def Lst.initial : Lst :=
  { slots := List.replicate Config.lineSlots .empty, hold := false, abortedFsn := none,
    discards := ⟨0, 0, 0, 0, 0, 0⟩ }

/-- A lane at power-on (R55, R115). -/
def Lane.initial : Lane :=
  { pendingTrim := 0, trim := 0, offset := 0, densityClips := 0, powerClips := 0, floorClamps := 0,
    source := .dark, holdBuffer := [], slot := none }

/-- No slips. -/
def Slips.zero : Slips := ⟨0, 0, 0, 0, 0⟩

/-- The facet table at power-on: ten records of zeros (R128). -/
def zeroFacets : List FacetRecord := List.replicate Config.facets ⟨0, .all 0⟩

/-- The STU at power-on (R138). -/
def Stu.initial : Stu :=
  { polygon := .stopped, motor := false, acquireFault := false, runCount := 0, acquireTimer := none,
    nominal := 100000, acquireLimit := 20000, glitches := 0, lastPeriod := 0, lastEdge := none,
    periodStart := none, periodOverrun := false, facetSync := .hunt, edgeRun := 0, goodRevs := 0,
    revOpen := false, facetsPending := zeroFacets, facets := zeroFacets, verticalPending := .all 0,
    vertical := .all 0, lineWaitLimit := 5000, lineWait := none, scanCounter := 0, slips := .zero,
    writing := none }

/-- A colour of the PFM at power-on (R140). -/
def PulseLane.initial : PulseLane :=
  { horizontalPending := 0, horizontal := 0, rung := none, amplitude := 0, pulseOpen := false,
    pulse := none, truncations := 0 }

/-- The PFM at power-on (R140). -/
def Pfm.initial : Pfm :=
  { lanes := .all .initial, startDelayPending := 64, startDelay := 64, rungGuardPending := 8,
    rungGuard := 8, line := none, request := none }

/-- A laser channel at power-on (R150). -/
def Channel.initial : Channel :=
  { state := .off, warmStart := none, captureCount := 0, captureSum := 0, captureCode := none,
    reference := none, drift := 0, epoch := 0, accCount := 0, accSum := 0, lastMean := none,
    beyond := false, refCode := 3000, monitorOffset := 0 }

/-- The LMN at power-on (R150). -/
def Lmn.initial : Lmn :=
  { channels := .all .initial, retraceCount := 0, measurement := none, value := .idle,
    warmInterval := 120, driftLimit := 120 }

/-- The BLC at power-on (R182): latch set, cause POWER, mask POLYGON, SYNC, TRANSPORT, DRIFT, interlock open. -/
def Blc.initial : Blc := { latch := true, causes := 0x40, mask := 0x1E, interlockOpen := true }

/-- The FTC at power-on (R167). -/
def Ftc.initial : Ftc :=
  { state := .unregistered, faultCause := none, phase := none, origin := none, counter := 0,
    perfTimer := none, settleTimer := none, motor := false, pinsIn := false, stage := .unknown,
    position := none, stageTimer := none, homeWaiting := false, settleInterval := 60, perfTimeout := 200 }

/-- A filter of edges at power-on, its input inactive (R119; log entry 7). -/
def EdgeFilter.initial : EdgeFilter := { shown := false, run := 0, fired := false }

/-- A filter of levels at power-on: inactive, not engaged, open (R168, R183; log entry 7). -/
def LevelFilter.initial : LevelFilter := { shown := false, level := false, run := 0, fired := false }

/-- The sensors at power-on (R119, R168, R183). -/
def Sensors.initial : Sensors :=
  { beam := .initial, index := .initial, perf := .initial, pin := .initial, stageDone := .initial,
    interlock := .initial, sent := false, coming := [] }

/-! ## Updates: one block replaced, the others as they were (their lemmas stand in Laws/State.lean) -/

namespace State

/-- The state with its `pending` replaced. -/
def withPending (s : State) (x : List Instr) : State := { s with pending := x }

/-- The state with its `clock` replaced. -/
def withClock (s : State) (x : Nat) : State := { s with clock := x }

/-- The state with its `free` replaced. -/
def withFree (s : State) (x : Nat) : State := { s with free := x }

/-- The state with its `lrx` replaced. -/
def withLrx (s : State) (x : Lrx) : State := { s with lrx := x }

/-- The state with its `cpr` replaced. -/
def withCpr (s : State) (x : Cpr) : State := { s with cpr := x }

/-- The state with its `rtx` replaced. -/
def withRtx (s : State) (x : Rtx) : State := { s with rtx := x }

/-- The state with its `pst` replaced. -/
def withPst (s : State) (x : Pst) : State := { s with pst := x }

/-- The state with its `fq` replaced. -/
def withFq (s : State) (x : Fq) : State := { s with fq := x }

/-- The state with its `lst` replaced. -/
def withLst (s : State) (x : Lst) : State := { s with lst := x }

/-- The state with its `lanes` replaced. -/
def withLanes (s : State) (x : PerColour Lane) : State := { s with lanes := x }

/-- The state with its `stu` replaced. -/
def withStu (s : State) (x : Stu) : State := { s with stu := x }

/-- The state with its `pfm` replaced. -/
def withPfm (s : State) (x : Pfm) : State := { s with pfm := x }

/-- The state with its `lmn` replaced. -/
def withLmn (s : State) (x : Lmn) : State := { s with lmn := x }

/-- The state with its `blc` replaced. -/
def withBlc (s : State) (x : Blc) : State := { s with blc := x }

/-- The state with its `ftc` replaced. -/
def withFtc (s : State) (x : Ftc) : State := { s with ftc := x }

/-- The state with its `sen` replaced. -/
def withSen (s : State) (x : Sensors) : State := { s with sen := x }

end State

/-- The part right after power-on, with nothing waiting (R34 and the chapters' power-on values). -/
def State.reset : State :=
  { pending := [], clock := 0, free := 0, lrx := .initial, cpr := .initial, rtx := .initial, pst := .initial,
    fq := .initial, lst := .initial, lanes := .all .initial, stu := .initial, pfm := .initial,
    lmn := .initial, blc := .initial, ftc := .initial, sen := .initial }

end Sys2Proof.Machine
end

