-- ==== Sys2Proof/Machine/Bytes.lean ====
section
/-! DEFINITION. Byte order, signed fields, the CRC and the framing of a block (R2, R3, R190), and the limits
that counters and arguments keep (R24, R190). -/

namespace Sys2Proof.Machine

open Sys2Proof

/-! ## Reading fields -/

/-- An unsigned number, most significant byte first (R190). -/
def beNat (bs : List Byte) : Nat := bs.foldl (fun n b => n * 256 + b.toNat) 0

/-- The unsigned field of `width` bytes at an offset. -/
def field (bs : List Byte) (offset width : Nat) : Nat := beNat ((bs.drop offset).take width)

/-- A number of two bytes read in two's complement (R190). -/
def signed16 (n : Nat) : Int := if n < 32768 then (n : Int) else (n : Int) - 65536

/-- The signed field of two bytes at an offset. -/
def sfield (bs : List Byte) (offset : Nat) : Int := signed16 (field bs offset 2)

/-! ## Writing fields -/

/-- A number in one byte. -/
def be1 (n : Nat) : List Byte := [BitVec.ofNat 8 n]

/-- A number in two bytes, most significant first. -/
def be2 (n : Nat) : List Byte := [BitVec.ofNat 8 (n / 256), BitVec.ofNat 8 n]

/-- A number in four bytes, most significant first. -/
def be4 (n : Nat) : List Byte := be2 (n / 65536) ++ be2 n

/-- A signed number in two bytes, in two's complement. -/
def beSigned (i : Int) : List Byte := be2 ((i % 65536).toNat)

/-- A yes or no, 1 or 0, in one byte. -/
def beBool (b : Bool) : List Byte := be1 (if b then 1 else 0)

/-! ## The CRC and the block -/

/-- One bit's step of the CRC register (R3). -/
def crcShift (c : BitVec 32) : BitVec 32 :=
  if c.msb then (c <<< 1) ^^^ 0x04C11DB7 else c <<< 1

/-- One byte entering the CRC register, most significant bit first (R3). -/
def crcByte (c : BitVec 32) (b : Byte) : BitVec 32 :=
  (List.range 8).foldl (fun c _ => crcShift c) (c ^^^ (b.setWidth 32 <<< 24))

/-- The CRC of the covered bytes (R3). -/
def crc32 (bs : List Byte) : BitVec 32 := ~~~(bs.foldl crcByte 0xFFFFFFFF)

/-- The marker (R2). -/
def marker : List Byte := [0xC3, 0x5A, 0x96, 0x3C]

/-- A block: marker, kind, length, payload and CRC (R2, R3; 12_formats.md, 12.2). -/
def blockBytes (kind : Nat) (payload : List Byte) : List Byte :=
  let body := be1 kind ++ be2 payload.length ++ payload
  marker ++ body ++ be4 (crc32 body).toNat

/-! ## Counters and limits -/

/-- A counter of 8, 16 or 32 bits rises by one and holds at its largest value (R4, R190). -/
def bump8 (n : Nat) : Nat := if n < 255 then n + 1 else n
/-- As `bump8`, 16 bits. -/
def bump16 (n : Nat) : Nat := if n < 65535 then n + 1 else n
/-- As `bump8`, 32 bits. -/
def bump32 (n : Nat) : Nat := if n < 4294967295 then n + 1 else n

/-- A numeric argument brought within its range (R24). -/
def limit (lo hi n : Nat) : Nat := if n < lo then lo else if hi < n then hi else n

/-- A signed argument brought within its range (R24). -/
def limitInt (lo hi i : Int) : Int := if i < lo then lo else if hi < i then hi else i

/-! ## Addressed tables -/

/-- What a table holds at an index: the listed value, or `d`, which an unlisted index reads as. -/
def tableRead {α : Type} (d : α) (t : Table α) (i : Nat) : α :=
  match t with
  | [] => d
  | (j, v) :: rest => if i = j then v else tableRead d rest i

/-- A table with one index written, in canonical form: writing `d` removes the entry. -/
def tableWrite {α : Type} [DecidableEq α] (d : α) (t : Table α) (i : Nat) (v : α) : Table α :=
  match t with
  | [] => if v = d then [] else [(i, v)]
  | (j, w) :: rest =>
    if i < j then (if v = d then (j, w) :: rest else (i, v) :: (j, w) :: rest)
    else if i = j then (if v = d then rest else (i, v) :: rest)
    else (j, w) :: tableWrite d rest i v

/-- The indexes of a table rise strictly from above `lo`, and no entry equals `d`. -/
def tableWfFrom {α : Type} [DecidableEq α] (d : α) (lo : Nat) : Table α → Bool
  | [] => true
  | (j, v) :: rest => decide (lo ≤ j) && decide (v ≠ d) && tableWfFrom d (j + 1) rest

/-- The canonical form of a table. -/
def tableWf {α : Type} [DecidableEq α] (d : α) (t : Table α) : Bool := tableWfFrom d 0 t

/-- The table of the first `n` values of a function, in canonical form. -/
def tableOf {α : Type} [DecidableEq α] (d : α) (n : Nat) (f : Nat → α) : Table α :=
  (List.range n).filterMap fun i => if f i = d then none else some (i, f i)

end Sys2Proof.Machine
end

