-- ==== Sys2Proof/Machine/Lane.lean ====
section
/-! DEFINITION. The inbound lane: what the data bytes heard make of its next event (R5 to R9), and what each input adds
to them (R1, R5, R8). -/

namespace Sys2Proof.Machine

open Sys2Proof

/-! ## Bytes of the inbound lane (R2, R3, R5) -/

/-- The search for a marker: bytes that begin none are discarded one by one, down to the last three (R5). -/
def searched : List Byte → List Byte
  | [] => []
  | b :: rest => if (b :: rest).length < 4 ∨ (b :: rest).take 4 = marker then b :: rest else searched rest

/-- The length that follows the kind (12_formats.md, 12.2). -/
def lengthHeard (bs : List Byte) : Nat := field bs 5 2

/-- The bytes of the block that stands first: marker, kind, length, payload and CRC (12_formats.md, 12.2). -/
def blockSize (bs : List Byte) : Nat := 11 + lengthHeard bs

/-- The kind that follows the marker (12_formats.md, 12.2). -/
def kindHeard (bs : List Byte) : Byte := bs.getD 4 0

/-- The payload of the block that stands first (12_formats.md, 12.2). -/
def payloadHeard (bs : List Byte) : List Byte := (bs.drop 7).take (lengthHeard bs)

/-- The CRC computed over kind, length and payload equals the four bytes that follow them (R3). -/
def crcPasses (bs : List Byte) : Bool :=
  decide ((crc32 ((bs.drop 4).take (3 + lengthHeard bs))).toNat = field bs (7 + lengthHeard bs) 4)

/-! ## The lane's next event -/

/-- What the data bytes heard make due. -/
inductive LaneEvent where
  /-- A marker in HUNT, with the kind and length read after it (R5). -/
  | markerFound (kind : Byte) (length : Nat)
  /-- Four bytes after a block that are not the marker (R7). -/
  | slip
  /-- A marker after a block with a length above 4800 (R7). -/
  | tooLong
  /-- A block that fails its check (R6). -/
  | badBlock
  /-- A block that passes its check, with its kind and payload (R6, R9). -/
  | goodBlock (kind : Byte) (payload : List Byte)
  /-- A transition in BREAK (R8). -/
  | breakEnd
deriving DecidableEq, Repr

/-- The event of the bytes of a SYNCED lane, from the first byte after the last block on (R6, R7). -/
def syncedEvent (bs : List Byte) : Option LaneEvent :=
  if bs.length < 4 then none
  else if bs.take 4 ≠ marker then some .slip
  else if bs.length < 7 then none
  else if Config.maxLength < lengthHeard bs then some .tooLong
  else if bs.length < blockSize bs then none
  else if crcPasses bs then some (.goodBlock (kindHeard bs) (payloadHeard bs))
  else some .badBlock

/-- The event that is due on the inbound lane; none while a third consecutive CRC failure still has to send the link
to HUNT (R5 to R8). -/
def laneEvent (l : Lrx) : Option LaneEvent :=
  match l.link with
  | .hunt =>
    if l.buffer.take 4 = marker ∧ 7 ≤ l.buffer.length then
      some (.markerFound (kindHeard l.buffer) (lengthHeard l.buffer))
    else none
  | .synced => if l.crcRun < 3 then syncedEvent l.buffer else none
  | .broken => if l.stirred then some .breakEnd else none

/-- A block is in reception: SYNCED, with the marker and a length within 0..4800 read (R7, R8; log entry 6). -/
def receiving (l : Lrx) : Bool :=
  l.link == .synced &&
    decide (l.buffer.take 4 = marker ∧ 7 ≤ l.buffer.length ∧ lengthHeard l.buffer ≤ Config.maxLength)

/-! ## Hearing -/

/-- A data byte is heard: in HUNT the search takes it, in SYNCED it is received, and in BREAK it is not taken unless
a transition came before it (R5, R6, R8; log entry 6). -/
def hearByte (b : Byte) (l : Lrx) : Lrx :=
  match l.link with
  | .hunt => { l with buffer := searched (l.buffer ++ [b]) }
  | .synced => { l with buffer := l.buffer ++ [b] }
  | .broken => if l.stirred then { l with buffer := l.buffer ++ [b] } else l

/-- The inbound lane shows a transition: the break timer restarts, and in BREAK it is what ends the break (R1, R8). -/
def stir (now : Nat) (l : Lrx) : Lrx :=
  { l with lastTransition := now, stirred := l.stirred || l.link == .broken }

/-- The LRX takes an input: data bytes are heard, idle symbols are discarded, and both contain transitions (R1). -/
def hear (now : Nat) (i : Input) (l : Lrx) : Lrx :=
  match i with
  | .data b => stir now (hearByte b l)
  | .idle | .transition => stir now l
  | _ => l

end Sys2Proof.Machine
end

