-- ==== Sys2Proof/Machine/Operands.lean ====
section
/-! DEFINITION. The payloads of the inbound blocks and how the owner of each kind decodes them
(12_formats.md, 12.3, 12.4; R191). -/

namespace Sys2Proof.Machine

open Sys2Proof

/-- The profile slot a byte names (R40, R53, R79). -/
def slotOf : Nat → Option (Fin 2)
  | 0 => some 0
  | 1 => some 1
  | _ => none

/-- The table kind a byte names (12.4). -/
def tableKindOf : Nat → Option TableKind
  | 0 => some .cdt
  | 1 => some .sct
  | 2 => some .plt
  | _ => none

/-- The colour a colour code names (R190). -/
def colourOf : Nat → Option Colour
  | 0 => some .red
  | 1 => some .green
  | 2 => some .blue
  | _ => none

/-- The colours of a colour set, or none where it names no colour or a bit stands for none (R24, R191). -/
def colourSetOf (n : Nat) : Option (PerColour Bool) :=
  if n = 0 ∨ 7 < n then none else some ⟨n.testBit 0, n.testBit 1, n.testBit 2⟩

/-! ## FRAME -/

/-- The fields of a FRAME, each within its range (R77, R78). -/
structure FrameFields where
  fsn : Nat
  tag : Nat
  slot : Fin 2
  width : Nat
  height : Nat
  advance : Nat
  startNotice : Bool
  regions : List Region
deriving DecidableEq, Repr

/-- The region records of a FRAME, `n` of them, with the bytes left over (12.3). -/
def regionsOf : Nat → List Byte → Option (List Region × List Byte)
  | 0, bs => some ([], bs)
  | n + 1, kind :: l1 :: l0 :: rest =>
    let lines := beNat [l1, l0]
    match kind.toNat with
    | 0 => (regionsOf n rest).map fun p => (⟨.image, lines⟩ :: p.1, p.2)
    | 1 =>
      match rest with
      | r1 :: r0 :: g1 :: g0 :: b1 :: b0 :: rest' =>
        (regionsOf n rest').map fun p =>
          (⟨.fill ⟨beNat [r1, r0], beNat [g1, g0], beNat [b1, b0]⟩, lines⟩ :: p.1, p.2)
      | _ => none
    | 2 => (regionsOf n rest).map fun p => (⟨.dark, lines⟩ :: p.1, p.2)
    | _ => none
  | _ + 1, _ => none

/-- A region whose line count is within 1..3200 and whose fill codes are within 0..4095 (R78, R191). -/
def regionOk (r : Region) : Bool :=
  decide (1 ≤ r.lines ∧ r.lines ≤ 3200) &&
    match r.kind with
    | .fill codes => codes.list.all fun v => decide (v ≤ 4095)
    | _ => true

/-- The fields of a FRAME payload, or none where a field lies outside its range or names nothing, an options
bit above 0 is set, or the length differs from what the records call for (R79 check 1, R191). -/
def frameFieldsOf (p : List Byte) : Option FrameFields :=
  match slotOf (field p 5 1), regionsOf (field p 12 1) (p.drop 13) with
  | some slot, some (regions, []) =>
    let f : FrameFields :=
      { fsn := field p 0 1, tag := field p 1 4, slot := slot, width := field p 6 2, height := field p 8 2,
        advance := field p 10 1, startNotice := decide (field p 11 1 = 1), regions := regions }
    if 13 ≤ p.length ∧ 16 ≤ f.width ∧ f.width ≤ 4096 ∧ 1 ≤ f.height ∧ f.height ≤ 3200 ∧ f.advance ≤ 16 ∧
        field p 11 1 ≤ 1 ∧ 1 ≤ regions.length ∧ regions.length ≤ 8 ∧ regions.all regionOk then some f
    else none
  | _, _ => none

/-! ## LINE -/

/-- The pixels of the 9-byte pairs of a LINE payload (12.3). -/
def pixelsOf : List Byte → List Pixel
  | b0 :: b1 :: b2 :: b3 :: b4 :: b5 :: b6 :: b7 :: b8 :: rest =>
    ⟨b0.toNat * 16 + b1.toNat / 16, b1.toNat % 16 * 256 + b2.toNat, b3.toNat * 16 + b4.toNat / 16⟩ ::
    ⟨b4.toNat % 16 * 256 + b5.toNat, b6.toNat * 16 + b7.toNat / 16, b7.toNat % 16 * 256 + b8.toNat⟩ ::
    pixelsOf rest
  | _ => []

/-- The payload length that a LINE of `n` pixels has (12.3). -/
def lineLength (n : Nat) : Nat := 6 + 9 * ((n + 1) / 2)

/-- The segments of a line of `w` pixels (R99). -/
def segmentsExpected (w : Nat) : Nat := (w + 1023) / Config.segmentPixels

/-- The pixels that segment `seg` of a line of `w` pixels has (R104). -/
def segmentWidth (w seg : Nat) : Nat := min Config.segmentPixels (w - Config.segmentPixels * seg)

/-! ## TABLE -/

/-- The densities of a CDT block, with the bytes that make no whole entry (12.4). -/
def cdtEntriesOf : List Byte → List Nat × List Byte
  | d1 :: d0 :: rest => ((beNat [d1, d0]) :: (cdtEntriesOf rest).1, (cdtEntriesOf rest).2)
  | rest => ([], rest)

/-- The entries of an SCT or PLT block, a colour code and two values, with the bytes left over (12.4). -/
def pairEntriesOf : List Byte → List (Nat × Nat × Nat) × List Byte
  | c :: a1 :: a0 :: b1 :: b0 :: rest =>
    ((c.toNat, beNat [a1, a0], beNat [b1, b0]) :: (pairEntriesOf rest).1, (pairEntriesOf rest).2)
  | rest => ([], rest)

/-! ## COMMAND -/

/-- The command codes that name a command (12.4). -/
def commandCodes : List Nat :=
  [0x01, 0x02, 0x03, 0x04, 0x10, 0x11, 0x12, 0x18, 0x20, 0x21, 0x22, 0x28, 0x29, 0x2A, 0x2B, 0x2C, 0x2D,
   0x30, 0x38, 0x39, 0x3A, 0x3B, 0x40, 0x41, 0x42, 0x48, 0x49]

/-- A COMMAND block's tag, code and argument bytes (12.4). -/
structure CommandFields where
  tag : Nat
  code : Nat
  args : List Byte
deriving DecidableEq, Repr

/-- The fields of a COMMAND payload, none where it is shorter than 3 bytes (R22, R191). -/
def commandFieldsOf : List Byte → Option CommandFields
  | t1 :: t0 :: code :: args => some ⟨beNat [t1, t0], code.toNat, args⟩
  | _ => none

end Sys2Proof.Machine
end

