-- ==== Sys2Proof/Machine/Formats.lean ====
section
/-! DEFINITION. The byte layouts of the outbound blocks and the codes that stand for names
(12_formats.md, 12.1 and 12.5; R190, R192). -/

namespace Sys2Proof.Machine

open Sys2Proof

/-! ## Codes of enumerations (R190: from 0 in the order of the owning rule) -/

def linkCode : LinkState → Nat
  | .hunt => 0 | .synced => 1 | .broken => 2

def polygonCode : PolygonState → Nat
  | .stopped => 0 | .acquiring => 1 | .locked => 2

def facetSyncCode : FacetSync → Nat
  | .hunt => 0 | .synced => 1

def transportCode : TransportState → Nat
  | .unregistered => 0 | .advancing => 1 | .settling => 2 | .registered => 3 | .fault => 4

def faultCode : Option FaultCause → Nat
  | none => 0 | some .stall => 1 | some .pin => 2 | some .stage => 3

def channelCode : ChannelState → Nat
  | .off => 0 | .warming => 1 | .capturing => 2 | .ready => 3

def stageCode : StageState → Nat
  | .unknown => 0 | .idle => 1 | .homing => 2 | .stepping => 3

def slotStateCode : SlotState → Nat
  | .empty => 0 | .loading => 1 | .incomplete => 2 | .compiling => 3 | .valid => 4 | .measuring => 5

def tableKindCode : TableKind → Nat
  | .cdt => 0 | .sct => 1 | .plt => 2

def colourCode : Colour → Nat
  | .red => 0 | .green => 1 | .blue => 2

def exposureCode : ExposureSide → Nat
  | .waiting => 0 | .positioning => 1 | .exposing => 2 | .finished => 3

def dataCode : DataSide → Nat
  | .pending => 0 | .opened => 1 | .closed => 2

def outcomeCode : DataOutcome → Nat
  | .complete => 0 | .concealed => 1 | .noData => 2 | .aborted => 3

def abortCode : Option AbortCause → Nat
  | none => 0 | some .blanked => 1 | some .lineWait => 2 | some .notRegistered => 3
  | some .transport => 4 | some .abortCommand => 5 | some .flush => 6

def measurementCode : MeasurementValue → Nat
  | .idle => 0 | .running _ => 1 | .result .accepted _ => 2 | .result (.rejectedOrder _) _ => 3
  | .result (.rejectedSpacing _) _ => 4 | .result .abandoned _ => 5

/-- The slot of a MEASUREMENT value, 0 where absent (R192). -/
def measurementSlot : MeasurementValue → Nat
  | .idle => 0 | .running n => n.val | .result _ n => n.val

def resultCode : ResultCode → Nat
  | .ok => 0 | .clamped => 1 | .refused => 2 | .curveCount => 3 | .curveOrder => 4 | .ladderCount => 5
  | .ladderOrder => 6 | .ladderSpacing => 7

def reasonCode : Option Reason → Nat
  | none => 0 | some .busy => 1 | some .badState => 2 | some .badArgument => 3 | some .slotPinned => 4
  | some .slotNotValid => 5 | some .noSession => 6 | some .triggerActive => 7 | some .notFound => 8
  | some .queueFull => 9 | some .duplicateFsn => 10 | some .listSum => 11 | some .notOpen => 12

/-- A set of colours in one byte, red in bit 0 (R190). -/
def colourSetCode (p : PerColour Bool) : Nat :=
  (if p.red then 1 else 0) + (if p.green then 2 else 0) + (if p.blue then 4 else 0)

/-- Kinds present in one byte, CDT in bit 0 (R190). -/
def kindsCode (k : Kinds) : Nat :=
  (if k.cdt then 1 else 0) + (if k.sct then 2 else 0) + (if k.plt then 4 else 0)

/-! ## Payloads -/

/-- The 21 bytes at offsets 4 to 24 of a NOTICE: the values of the thirteen conditions (12.5). The
acquire-fault flag, to which 12.5 gives no codes, is 1 for set and 0 for clear (DESIGN CHOICE, log entry 12). -/
def conditionBytes (v : Conditions) : List Byte :=
  be1 (linkCode v.link) ++ beBool v.blankLatch ++ be1 v.blankCauses.toNat ++
  be1 (polygonCode v.polygon) ++ beBool v.acquireFault ++ be1 (facetSyncCode v.facetSync) ++
  be1 (transportCode v.transport) ++ be1 (faultCode v.faultCause) ++
  v.lasers.list.flatMap (fun c => be1 (channelCode c)) ++ be1 (colourSetCode v.drift) ++ beBool v.held ++
  be1 (measurementCode v.measurement) ++ be1 (measurementSlot v.measurement) ++
  be1 v.lineOverrun ++ be1 v.controlOverrun ++ be1 v.controlError ++ be1 v.frameStarted ++
  beBool v.startedFsn.isSome ++ be1 (v.startedFsn.getD 0)

/-- The payload of a NOTICE, 25 bytes (12.5). -/
def noticeBytes (n : Notice) : List Byte :=
  be2 n.changed.toNat ++ be2 n.latch.toNat ++ conditionBytes n.values

/-- The payload of a REPLY (12.5). -/
def replyBytes (r : Reply) : List Byte :=
  beBool r.stream ++ be2 r.tag ++ be1 r.code ++ be1 (resultCode r.result) ++ be1 (reasonCode r.reason) ++
  be2 r.data.length ++ r.data

/-- The latched setup at offset 92 of a REPORT, all zero where absent (12.5, R192). -/
def setupBytes : Option LatchedSetup → List Byte
  | none => List.replicate 15 0
  | some u =>
    u.trims.list.flatMap beSigned ++ u.vertical.list.flatMap be1 ++ u.horizontal.list.flatMap be1 ++
    be2 u.startDelay ++ be1 u.rungGuard

/-- The payload of a REPORT, 107 bytes (12.5, R192). -/
def reportBytes (r : Report) : List Byte :=
  be1 r.fsn ++ be4 r.tag ++ be1 r.slot.val ++ beBool r.abortCause.isSome ++ be1 (abortCode r.abortCause) ++
  be1 (match r.sideAtAbort with | some e => exposureCode e | none => 0xFF) ++ be2 (r.abortLine.getD 0) ++
  be1 (match r.midLine with | some true => 1 | some false => 0 | none => 0xFF) ++
  be1 (outcomeCode r.dataOutcome) ++ be2 r.complete ++ be2 r.partialLines ++ be2 r.missing ++
  be1 ((if r.excess then 1 else 0) + (if r.staleLadder then 2 else 0) + (if r.setup.isSome then 4 else 0)) ++
  be2 r.linesWritten ++ be2 r.scanLines ++
  be4 r.slips.data ++ be4 r.slips.stage ++ be4 r.slips.sync ++ be4 r.slips.laser ++ be4 r.slips.blanked ++
  r.counts.list.flatMap (fun c => be4 c.densityClips ++ be4 c.powerClips ++ be4 c.floorClamps ++
    be4 c.truncations) ++
  setupBytes r.setup

/-- An outbound block framed for the lane, with its kind's code and its CRC (R2, R3; 12.2). -/
def outBytes : OutBlock → List Byte
  | .reply r => blockBytes 0x30 (replyBytes r)
  | .report r => blockBytes 0x31 (reportBytes r)
  | .notice n => blockBytes 0x32 (noticeBytes n)

end Sys2Proof.Machine
end

