-- ==== Sys2Proof/Machine/Flags.lean ====
section
/-! DEFINITION. The thirteen status conditions and the status latch (Chapter 2, 2.4), with the notice path of
the outbound queue (R16, R17): which values differ, when a change produces a NOTICE, and how a NOTICE
coalesces. -/

namespace Sys2Proof.Machine

open Sys2Proof

/-- The thirteen conditions, in the order of R26. -/
inductive Condition where
  | link | blank | polygon | facetSync | transport | lasers | drift | queue | measurement
  | lineOverrun | controlOverrun | controlError | frameStarted
deriving DecidableEq, Repr

/-- All conditions, in the order of R26. -/
def conditions : List Condition :=
  [.link, .blank, .polygon, .facetSync, .transport, .lasers, .drift, .queue, .measurement,
   .lineOverrun, .controlOverrun, .controlError, .frameStarted]

/-- A condition's bit in a condition set (R190). -/
def condBit : Condition → Nat
  | .link => 0 | .blank => 1 | .polygon => 2 | .facetSync => 3 | .transport => 4 | .lasers => 5
  | .drift => 6 | .queue => 7 | .measurement => 8 | .lineOverrun => 9 | .controlOverrun => 10
  | .controlError => 11 | .frameStarted => 12

/-- The set of the conditions that have a property. -/
def condSet (p : Condition → Bool) : CondSet :=
  conditions.foldl (fun acc c => if p c then acc ||| (1#13 <<< condBit c) else acc) 0

/-- A condition is in a set. -/
def condIn (set : CondSet) (c : Condition) : Bool := set.getLsbD (condBit c)

/-- A condition's two values differ in any part (R26, R29, R32). -/
def condDiffers (a b : Conditions) : Condition → Bool
  | .link => decide (a.link ≠ b.link)
  | .blank => decide (a.blankLatch ≠ b.blankLatch ∨ a.blankCauses ≠ b.blankCauses)
  | .polygon => decide (a.polygon ≠ b.polygon ∨ a.acquireFault ≠ b.acquireFault)
  | .facetSync => decide (a.facetSync ≠ b.facetSync)
  | .transport => decide (a.transport ≠ b.transport ∨ a.faultCause ≠ b.faultCause)
  | .lasers => decide (a.lasers ≠ b.lasers)
  | .drift => decide (a.drift ≠ b.drift)
  | .queue => decide (a.held ≠ b.held)
  | .measurement => decide (a.measurement ≠ b.measurement)
  | .lineOverrun => decide (a.lineOverrun ≠ b.lineOverrun)
  | .controlOverrun => decide (a.controlOverrun ≠ b.controlOverrun)
  | .controlError => decide (a.controlError ≠ b.controlError)
  | .frameStarted => decide (a.frameStarted ≠ b.frameStarted ∨ a.startedFsn ≠ b.startedFsn)

/-- A change of a condition from `old` to `new`: for the nine state conditions any change of any part, for
the four event conditions a rise of the count (R26). -/
def condChanged (old new : Conditions) : Condition → Bool
  | .lineOverrun => decide (old.lineOverrun < new.lineOverrun)
  | .controlOverrun => decide (old.controlOverrun < new.controlOverrun)
  | .controlError => decide (old.controlError < new.controlError)
  | .frameStarted => decide (old.frameStarted < new.frameStarted)
  | c => condDiffers old new c

/-! ## The pending notice (R16, R17) -/

/-- An outbound entry that holds a NOTICE. -/
def isNotice : OutEntry → Bool
  | .block (.notice _) => true
  | _ => false

/-- A pending notice takes the newer contents and the union of the changed sets (R17). -/
def mergeNotice (newer older : Notice) : Notice := { newer with changed := older.changed ||| newer.changed }

/-- The entries whose transmission has not begun (R13, R17). -/
def unsent (r : Rtx) : List OutEntry := if r.sending then r.entries.tail else r.entries

/-- The queue with a newer NOTICE merged into the one that waits in it (R17). -/
def mergeEntry (n : Notice) : OutEntry → OutEntry
  | .block (.notice old) => .block (.notice (mergeNotice n old))
  | e => e

/-- A NOTICE handed to the RTX: it replaces the pending notice where there is one, keeping that one's entry
or its wait, and otherwise takes a free entry or waits (R16, R17, R27). It takes the entry also where a REPORT waits and
has not yet been granted it (DESIGN CHOICE, log entry 40). -/
def handNotice (n : Notice) (s : State) : State :=
  if (unsent s.rtx).any isNotice then
    s.withRtx { s.rtx with
      entries := (if s.rtx.sending then s.rtx.entries.take 1 else []) ++ (unsent s.rtx).map (mergeEntry n) }
  else
    match s.cpr.waitingNotice with
    | some old => s.withCpr { s.cpr with waitingNotice := some (mergeNotice n old) }
    | none =>
      if s.rtx.entries.length < Config.outboundDepth then
        s.withRtx { s.rtx with entries := s.rtx.entries ++ [.block (.notice n)] }
      else s.withCpr { s.cpr with waitingNotice := some n }

/-- The CPR produces a NOTICE naming a changed set, whose latch flags are set: its snapshot gives every
current value and every latch flag as they then stand (R27, R28; log entry 10). -/
def produceNotice (changed : CondSet) (s : State) : State :=
  let latch := s.cpr.latch ||| changed
  handNotice { changed := changed, latch := latch, values := s.cpr.current }
    (s.withCpr { s.cpr with latch := latch })

/-! ## Changes reported by the owners -/

/-- New values reported to the CPR: its copy follows them, and the changed conditions whose latch flags are
clear produce one NOTICE (R27; changes reported together are taken in one order, log entry 10). -/
def reportValues (new : Conditions) (s : State) : State :=
  let fresh := condSet (condChanged s.cpr.current new) &&& ~~~s.cpr.latch
  let s := s.withCpr { s.cpr with current := new }
  if fresh = 0 then s else produceNotice fresh s

/-- The nine state conditions as their owners hold them, with the CPR's four event counts (R26). -/
def ownerValues (s : State) : Conditions :=
  { s.cpr.current with
    link := s.lrx.link
    blankLatch := s.blc.latch
    blankCauses := s.blc.causes
    polygon := s.stu.polygon
    acquireFault := s.stu.acquireFault
    facetSync := s.stu.facetSync
    transport := s.ftc.state
    faultCause := s.ftc.faultCause
    lasers := s.lmn.channels.map Channel.state
    drift := s.lmn.channels.map Channel.beyond
    held := s.fq.held
    measurement := s.lmn.value }

/-- The owners report what has changed (R26, R27). -/
def observe (s : State) : State := reportValues (ownerValues s) s

/-- An occurrence of an event condition: its count rises by one and holds at 255 (R26). FRAME STARTED occurs
under R97 with its FSN, in `frameStarted`. -/
def occur (c : Condition) (s : State) : State :=
  let v := s.cpr.current
  match c with
  | .lineOverrun => reportValues { v with lineOverrun := bump8 v.lineOverrun } s
  | .controlOverrun => reportValues { v with controlOverrun := bump8 v.controlOverrun } s
  | .controlError => reportValues { v with controlError := bump8 v.controlError } s
  | _ => s

/-- FRAME STARTED occurs with a record's FSN (R97). -/
def frameStarted (fsn : Nat) (s : State) : State :=
  let v := s.cpr.current
  reportValues { v with frameStarted := bump8 v.frameStarted, startedFsn := some fsn } s

end Sys2Proof.Machine
end

