-- ==== Sys2Proof/Machine/Time.lean ====
section
/-! DEFINITION. Time (R118, R139): the parts of a reference-clock count in which moments are held, the millisecond timebase,
and the moments that lie so many ticks after an edge. -/

namespace Sys2Proof.Machine

open Sys2Proof

/-! ## Counts of the reference clock (R118) -/

/-- The length of `n` reference-clock counts, in the parts in which moments are held (log entry 26). -/
def counts (n : Nat) : Nat := n * Config.partsPerCount

/-- The whole reference-clock counts that a length or a moment contains (R118). -/
def wholeCounts (t : Nat) : Nat := t / Config.partsPerCount

/-- The moment of the next whole count. -/
def nextCount (t : Nat) : Nat := counts (wholeCounts t + 1)

/-! ## The millisecond timebase (R118) -/

/-- The millisecond timebase (R118). -/
def timebase (s : State) : Nat := wholeCounts s.clock / Config.countsPerMs

/-- The moment at which an interval of `ms` ends that began at timebase value `start` (R118). -/
def dueAt (start ms : Nat) : Nat := counts ((start + ms) * Config.countsPerMs)

/-- The interval since timebase value `start` has reached `ms`. -/
def elapsedMs (start ms : Nat) (s : State) : Bool := decide (start + ms ≤ timebase s)

/-! ## Ticks (R139) -/

/-- The moment that lies `ticks` after an edge: a tick, 1/256 of N/5120 counts, is N parts long (R139). -/
def momentAfter (edge ticks : Nat) (s : State) : Nat := edge + ticks * s.stu.nominal

/-- The whole ticks from an edge to the present moment (R139). -/
def ticksSince (edge : Nat) (s : State) : Nat := (s.clock - edge) / s.stu.nominal

end Sys2Proof.Machine
end

