-- ==== Sys2Proof/Machine/Ops.lean ====
section
/-! DEFINITION. The named operations that the meanings share: the outbound queue, profile slots, frame records and
line slots. -/

namespace Sys2Proof.Machine

open Sys2Proof

/-! ## The outbound queue (R13 to R16) -/

/-- The queue's occupancy: entries that hold a block, with the one being sent, and reserved entries (R13). -/
def occupancy (s : State) : Nat := s.rtx.entries.length

/-- A free entry exists. -/
def entryFree (s : State) : Bool := decide (occupancy s < Config.outboundDepth)

/-- A block takes a free entry at the young end of the queue. -/
def enqueue (b : OutBlock) (s : State) : State :=
  s.withRtx { s.rtx with entries := s.rtx.entries ++ [.block b] }

/-- A REPLY refusing a stream block takes a free entry, or is dropped and counted (R15, R25). -/
def offerRefusal (code fsn : Nat) (reason : Reason) (s : State) : State :=
  if entryFree s then
    enqueue (.reply { stream := true, tag := fsn, code := code, result := .refused, reason := some reason,
                      data := [] }) s
  else s.withRtx { s.rtx with droppedRefusals := bump16 s.rtx.droppedRefusals }

/-- The count of refused stream blocks rises by one (R79). -/
def countRefused (s : State) : State := s.withFq { s.fq with refused := bump16 s.fq.refused }

/-- A stream block is refused: counted, and answered under R15 (R79, R109). -/
def refuseStream (code fsn : Nat) (reason : Reason) (s : State) : State :=
  offerRefusal code fsn reason (countRefused s)

/-- A reserved entry is filled with its REPLY (R14). -/
def fillReserved (r : Reply) : List OutEntry → List OutEntry
  | [] => []
  | .reserved :: rest => .block (.reply r) :: rest
  | e :: rest => e :: fillReserved r rest

/-- A reserved entry is released without a block (R22). -/
def dropReserved : List OutEntry → List OutEntry
  | [] => []
  | .reserved :: rest => rest
  | e :: rest => e :: dropReserved rest

/-- A report is waiting for an entry: in the backlog or held by a FINISHED record (R88). -/
def reportWaiting (s : State) : Bool :=
  !s.fq.backlog.isEmpty || s.fq.records.any fun r => r.exposure == .finished

/-- The report of a record that has left the queue takes a free entry, or joins the young end of the backlog,
where it also goes while an older report still waits (R88, R89 step 6; log entry 19). -/
def offerReport (rep : Report) (s : State) : State :=
  if entryFree s && !reportWaiting s then enqueue (.report rep) s
  else s.withFq { s.fq with backlog := s.fq.backlog ++ [rep] }

/-! ## Profile slots (Chapter 3) -/

/-- A slot's record. -/
def profile (s : State) (n : Fin 2) : ProfileSlot := if n = 0 then s.pst.slot0 else s.pst.slot1

/-- The state with a slot's record replaced. -/
def setProfile (n : Fin 2) (p : ProfileSlot) (s : State) : State :=
  s.withPst (if n = 0 then { s.pst with slot0 := p } else { s.pst with slot1 := p })

/-- Kinds present with one kind made present or absent. -/
def withKind (k : Kinds) (t : TableKind) (b : Bool) : Kinds :=
  match t with
  | .cdt => { k with cdt := b }
  | .sct => { k with sct := b }
  | .plt => { k with plt := b }

/-- The state a slot takes from its kinds present when an operation on it ends (R39). -/
def settledState (p : ProfileSlot) : SlotState :=
  match p.kinds with
  | ⟨false, false, false⟩ => .empty
  | ⟨true, true, true⟩ => if p.compiledCurrent then .valid else .compiling
  | _ => .incomplete

/-- The slot with its state set from its kinds present (R39). -/
def settle (p : ProfileSlot) : ProfileSlot := { p with state := settledState p }

/-- A slot's pin count rises by one (R51, R80). -/
def pin (n : Fin 2) (s : State) : State := setProfile n { profile s n with pins := (profile s n).pins + 1 } s

/-- A slot's pin count falls by one (R51). -/
def unpin (n : Fin 2) (s : State) : State := setProfile n { profile s n with pins := (profile s n).pins - 1 } s

/-- A measuring slot returns to its prior state (R52). -/
def restorePrior (p : ProfileSlot) : ProfileSlot :=
  match p.prior with
  | some .valid => { p with state := .valid, prior := none }
  | some .incomplete => { p with state := .incomplete, prior := none }
  | none => p

/-- An open load session is abandoned: its kind stays absent, its slot's state follows from the remaining
kinds, and the load pointer becomes none (R44). -/
def abandonSession (s : State) : State :=
  match s.pst.session with
  | none => s
  | some ses =>
    let s := setProfile ses.slot (settle (profile s ses.slot)) s
    (s.withPst { s.pst with session := none }).withCpr { s.cpr with loadPointer := none }

/-! ## Frame records (Chapter 5) -/

/-- The record with an FSN. -/
def record (fsn : Nat) (s : State) : Option FrameRecord := s.fq.records.find? fun r => r.fsn == fsn

/-- The state with the record of an FSN changed. -/
def changeRecord (fsn : Nat) (f : FrameRecord → FrameRecord) (s : State) : State :=
  s.withFq { s.fq with records := s.fq.records.map fun r => if r.fsn = fsn then f r else r }

/-- The oldest record. -/
def oldest (s : State) : Option FrameRecord := s.fq.records.head?

/-- The record whose exposure side is EXPOSING. -/
def exposing (s : State) : Option FrameRecord :=
  match oldest s with
  | some r => if r.exposure = .exposing then some r else none
  | none => none

/-- A frame record is EXPOSING. -/
def isExposing (s : State) : Bool := (exposing s).isSome

/-- The largest of three vertical offsets (R87). -/
def largest (v : PerColour Nat) : Nat := max v.red (max v.green v.blue)

/-- A record's data outcome, fixed when its data side closes (R83). -/
def dataOutcome (r : FrameRecord) : DataOutcome :=
  if r.dataAborted then .aborted
  else if r.complete = r.dataLines then .complete
  else if r.missing = r.dataLines then .noData
  else .concealed

/-! ## Line slots (Chapter 6) -/

/-- The number of FREE line slots (R100). -/
def freeSlots (l : Lst) : Nat := l.slots.countP fun sl => sl.state == .free

/-- HOLD follows the number of FREE slots (R19, R100). -/
def followHold (l : Lst) : Lst :=
  { l with hold :=
      if freeSlots l ≤ Config.holdAssert then true
      else if Config.holdRelease ≤ freeSlots l then false
      else l.hold }

/-- The slot holds a line of a frame. -/
def holdsFrame (fsn : Nat) (sl : LineSlot) : Bool := sl.state != .free && sl.fsn == some fsn

/-- Every slot holding a line of a frame is released, and HOLD follows (R112). -/
def releaseFrame (fsn : Nat) (s : State) : State :=
  s.withLst (followHold { s.lst with
    slots := s.lst.slots.map fun sl => if holdsFrame fsn sl then .empty else sl })

/-- The index of the first slot with a property. -/
def slotIndex (p : LineSlot → Bool) (s : State) : Option Nat := s.lst.slots.findIdx? p

/-- The state with the line slots replaced, and HOLD following. -/
def setSlots (slots : List LineSlot) (s : State) : State :=
  s.withLst (followHold { s.lst with slots := slots })

/-- The colours. -/
def colours : List Colour := [.red, .green, .blue]

/-- A property holds of some colour. -/
def anyColour (p : Colour → Bool) : Bool := p .red || p .green || p .blue

/-- A property holds of every colour. -/
def allColours (p : Colour → Bool) : Bool := p .red && p .green && p .blue

end Sys2Proof.Machine
end

