-- ==== Sys2Proof/Machine/Moments.lean ====
section
/-! DEFINITION. What the part's own counts, timers and windows make due, and when: counts at their limits, and the moments
of timers and windows. -/

namespace Sys2Proof.Machine

open Sys2Proof

/-! ## Counts at their limits (log entry 1) -/

/-- The link is at the limit of consecutive CRC failures (R6). -/
def crcLimitDue (s : State) : Bool := s.lrx.link == .synced && decide (3 ≤ s.lrx.crcRun)

/-- The edge run has overflowed while facet sync is SYNCED (R127). -/
def overflowDue (s : State) : Bool := s.stu.facetSync == .synced && decide (Config.edgeRunMax ≤ s.stu.edgeRun)

/-- An ACQUIRING polygon's run count has reached 64 (R120). -/
def lockDue (s : State) : Bool := s.stu.polygon == .acquiring && decide (Config.lockRun ≤ s.stu.runCount)

/-- Two good revolutions have passed in HUNT (R126). -/
def syncDue (s : State) : Bool :=
  s.stu.facetSync == .hunt && s.stu.polygon != .stopped && decide (2 ≤ s.stu.goodRevs)

/-- A film run's perforation counter has reached 0 (R171). -/
def perfZeroDue (s : State) : Bool :=
  s.ftc.state == .advancing && s.ftc.phase == some .filmRun && decide (s.ftc.counter = 0)

/-- A colour's capture completes: its count has reached 64, and no frame record is EXPOSING, so that no epoch rises
during an exposure (R75, R155; log entry 22). -/
def captureDue (s : State) (c : Colour) : Bool :=
  (s.lmn.channels.get c).state == .capturing &&
    decide (Config.captureSamples ≤ (s.lmn.channels.get c).captureCount) && !isExposing s

/-- A colour's drift accumulator has its samples (R160). -/
def driftDue (s : State) (c : Colour) : Bool := decide (Config.driftSamples ≤ (s.lmn.channels.get c).accCount)

/-- The rung counts of a slot's ladders. -/
def rungCounts (p : ProfileSlot) : PerColour Nat := p.plt.map fun l => l.rungs.length

/-- A colour's ladder has a rung of the measurement's present step, so that the step names it (R163). -/
def namedInStep (p : ProfileSlot) (m : Measurement) (c : Colour) : Bool := decide (m.step < (rungCounts p).get c)

/-- Every named colour's count has reached 64 (R163). -/
def stepDone (p : ProfileSlot) (m : Measurement) : Bool :=
  allColours fun c => !namedInStep p m c || decide (Config.captureSamples ≤ m.count.get c)

/-- A measurement's step has its samples (R163). -/
def measureDue (s : State) : Bool :=
  match s.lmn.measurement with
  | some m => stepDone (profile s m.slot) m
  | none => false

/-- The steps that a count's reaching its limit makes due. -/
def countSteps (s : State) : List (Bool × Instr) :=
  [(crcLimitDue s, .crcFailureLimit), (overflowDue s, .edgeRunOverflow), (lockDue s, .polygonLock),
   (syncDue s, .facetSyncGained), (perfZeroDue s, .perfCountZero), (captureDue s .red, .captureComplete .red),
   (captureDue s .green, .captureComplete .green), (captureDue s .blue, .captureComplete .blue),
   (driftDue s .red, .driftUpdate .red), (driftDue s .green, .driftUpdate .green),
   (driftDue s .blue, .driftUpdate .blue), (measureDue s, .measurementStepComplete)]

/-! ## Moments of timers and windows -/

/-- The moment at which the break timer reaches 1 ms; none in BREAK (R8). -/
def breakMoment (l : Lrx) : Option Nat :=
  if l.link = .broken then none else some (l.lastTransition + counts Config.breakCounts)

/-- The moment at which a COMPILING slot's compile ends (R49); at once where none is held, which no run reaches. -/
def compileMoment (p : ProfileSlot) : Option Nat :=
  if p.state = .compiling then some (p.compileEnds.getD 0) else none

/-- The counts by which a period may exceed N before it is judged outside (R120, R121). -/
def overrunMargin (u : Stu) : Nat := if u.polygon = .locked then u.nominal / 200 else u.nominal / 1000

/-- The moment at which the period being timed is judged for its length alone, where one is timed and has not
yet been so judged (R120, R121). -/
def overrunMoment (u : Stu) : Option Nat :=
  if u.polygon = .stopped ∨ u.periodOverrun = true then none
  else u.periodStart.map fun t0 => t0 + counts (u.nominal + overrunMargin u + 1)

/-- The moment at which the running acquire timer of an ACQUIRING polygon ends (R120). -/
def acquireMoment (u : Stu) : Option Nat :=
  match u.polygon, u.acquireTimer with
  | .acquiring, some t => some (dueAt t u.acquireLimit)
  | _, _ => none

/-- The moment at which a line's last position has been placed (R141). -/
def lineEnd (ln : PlacedLine) (s : State) : Nat :=
  momentAfter ln.edge (ln.leadIn + (ln.width + Config.extraPositions) * Config.ticksPerPixel) s

/-- The moment at which the line in progress completes (R141). -/
def lineMoment (s : State) : Option Nat :=
  match s.pfm.line, exposing s with
  | some ln, some _ => some (lineEnd ln s)
  | _, _ => none

/-- The moment at which the running line wait timer reaches its limit (R136). -/
def lineWaitMoment (s : State) : Option Nat := s.stu.lineWait.map fun t => dueAt t s.stu.lineWaitLimit

/-- The held request, bound to an edge, whose window has not opened, with that edge. -/
def requestToOpen (s : State) : Option (MonitorRequest × Nat) :=
  match s.pfm.request with
  | some q =>
    match q.bound with
    | some e => if q.opened then none else some (q, e)
    | none => none
  | none => none

/-- The moment at which a request's window opens (R147). It is computed from the N in effect now, also where SET POLYGON
has changed N since the edge (R124; DESIGN CHOICE, log entry 38). -/
def windowOpens (edge : Nat) (s : State) : Nat := momentAfter edge (Config.monitorOpens * Config.ticksPerPixel) s

/-- The moment at which the held request's window opens (R147). -/
def windowMoment (s : State) : Option Nat := (requestToOpen s).map fun q => windowOpens q.2 s

/-- The held request whose window is open, with its edge. -/
def requestToEnd (s : State) : Option (MonitorRequest × Nat) :=
  match s.pfm.request with
  | some q =>
    match q.bound with
    | some e => if q.opened then some (q, e) else none
    | none => none
  | none => none

/-- The moment at which a request's window ends (R147), from the N in effect now (DESIGN CHOICE, log entry 38). -/
def windowEnds (edge : Nat) (s : State) : Nat := momentAfter edge (Config.monitorCloses * Config.ticksPerPixel) s

/-- The moment at which the held request's open window ends (R147). -/
def windowEndMoment (s : State) : Option Nat := (requestToEnd s).map fun q => windowEnds q.2 s

/-- Why a monitor pulse is not fired (R147). -/
inductive NotFired where
  | blanked | line | edge
deriving DecidableEq, Repr

/-- What withholds a request's pulse, of what its window has met: BLANKED, then LINE, then EDGE (R147). -/
def withheld (q : MonitorRequest) : Option NotFired :=
  if q.sawBlank then some .blanked else if q.sawLine then some .line else if q.sawEdge then some .edge else none

/-- A request's window has met nothing that withholds its pulse (R147). -/
def undisturbed (q : MonitorRequest) : Bool := (withheld q).isNone

/-- The step that ends an open window. A window in which the pulse was fired ends with the averaged inputs, which come
from outside; of one in which it was not none are used (R147, R151; log entry 3). -/
def windowEndStep (q : MonitorRequest) : Option Instr :=
  if undisturbed q then q.brought.map .monitorWindowEnd else some (.monitorWindowEnd (.all 0))

/-- The moment at which a WARMING colour's warm-up ends (R154). -/
def warmMoment (s : State) (c : Colour) : Option Nat :=
  match (s.lmn.channels.get c).state, (s.lmn.channels.get c).warmStart with
  | .warming, some t => some (dueAt t (1000 * s.lmn.warmInterval))
  | _, _ => none

/-- A film run whose perforation counter is above 0 is timed by the perf timer (R171). -/
def running (f : Ftc) : Bool := f.state == .advancing && f.phase == some .filmRun && decide (0 < f.counter)

/-- The moment at which a film run's perf timer reaches the perf timeout (R171). -/
def perfMoment (f : Ftc) : Option Nat :=
  if running f then f.perfTimer.map fun t => dueAt t f.perfTimeout else none

/-- The moment at which a SETTLING transport's settle timer reaches the settle interval (R172). -/
def settleMoment (f : Ftc) : Option Nat :=
  if f.state = .settling then f.settleTimer.map fun t => dueAt t f.settleInterval else none

/-- The moment at which the stage operation's timer expires: 500 ms for homing, 20 ms for a step (R179). -/
def stageMoment (f : Ftc) : Option Nat :=
  match f.stage with
  | .homing => f.stageTimer.map fun t => dueAt t Config.homeTimeout
  | .stepping => f.stageTimer.map fun t => dueAt t Config.stepTimeout
  | _ => none

/-- A timer's or a window's moment, where it runs, with the step that takes it. -/
def timed (moment : Option Nat) (step : Option Instr) : List (Nat × Option Instr) :=
  moment.toList.map fun t => (t, step)

/-- The timers and windows that run, each with its moment and the step that takes it; none where the step needs what has
not yet been brought from outside. -/
def timerSteps (s : State) : List (Nat × Option Instr) :=
  timed (overrunMoment s.stu) (some .periodOverrun) ++ timed (acquireMoment s.stu) (some .acquireTimeout) ++
  timed (lineMoment s) (some .lineComplete) ++ timed (lineWaitMoment s) (some .lineWaitExpiry) ++
  timed (windowMoment s) (some .monitorWindowStart) ++
  timed (windowEndMoment s) (s.pfm.request.bind windowEndStep) ++
  timed (warmMoment s .red) (some (.warmUpEnd .red)) ++ timed (warmMoment s .green) (some (.warmUpEnd .green)) ++
  timed (warmMoment s .blue) (some (.warmUpEnd .blue)) ++ timed (perfMoment s.ftc) (some .perfTimeout) ++
  timed (settleMoment s.ftc) (some (.settleEnd [])) ++ timed (stageMoment s.ftc) (some .stageTimeout) ++
  timed (breakMoment s.lrx) (some (.linkBreak [])) ++
  timed (compileMoment (profile s 0)) (some (.compileEnd [] 0)) ++
  timed (compileMoment (profile s 1)) (some (.compileEnd [] 1))

end Sys2Proof.Machine
end

