-- ==== Sys2Proof/Machine/Execution.lean ====
section
/-! DEFINITION. The execution of a control block: when it may begin, its REPLY, and a command's owner behind its layout
(R21 to R24, R191). -/

namespace Sys2Proof.Machine

open Sys2Proof

/-- A command's answer (R23): its result, its reason where refused, and its data. -/
structure Answer where
  result : ResultCode
  reason : Option Reason
  data : List Byte
deriving DecidableEq, Repr

/-- The command was carried out as given. -/
def accepted (data : List Byte) : Answer := ⟨.ok, none, data⟩

/-- The command changed nothing. -/
def refused (r : Reason) : Answer := ⟨.refused, some r, []⟩

/-- The command was carried out, CLAMPED unless every argument was within its range (R24). -/
def carriedOut (asGiven : Bool) (data : List Byte) : Answer :=
  ⟨if asGiven then .ok else .clamped, none, data⟩

/-- Execution of the head block may begin: the FIFO is not empty, no block is in execution and the occupancy is 23 or
less (R21). -/
def mayExecute (s : State) : Bool :=
  !s.cpr.fifo.isEmpty && s.cpr.executing.isNone && decide (occupancy s ≤ Config.executeLimit)

/-- Execution begins: the head block leaves the FIFO and an entry is reserved at the young end (R14, R21). -/
def beginExecution (s : State) : State :=
  (s.withCpr { s.cpr with fifo := s.cpr.fifo.tail, executing := s.cpr.fifo.head? }).withRtx
    { s.rtx with entries := s.rtx.entries ++ [.reserved] }

/-- Execution of a COMMAND ends: its REPLY is written into the reserved entry (R14, R21). -/
def endWithReply (tag code : Nat) (a : Answer) (s : State) : State :=
  (s.withRtx { s.rtx with
      entries := fillReserved { stream := false, tag := tag, code := code, result := a.result,
                                reason := a.reason, data := a.data } s.rtx.entries }).withCpr
    { s.cpr with executing := none }

/-- Execution ends without a REPLY: the reserved entry is released (R22). -/
def endSilently (s : State) : State :=
  (s.withRtx { s.rtx with entries := dropReserved s.rtx.entries }).withCpr { s.cpr with executing := none }

/-- The COMMAND fields of the block at the head of the FIFO, where it is a COMMAND of 3 bytes or more. -/
def headCommand (s : State) : Option CommandFields :=
  match s.cpr.fifo with
  | ⟨.command, payload⟩ :: _ => commandFieldsOf payload
  | _ => none

/-- Execution of the command with this code, when it stands at the head of the FIFO and may begin; otherwise it
waits, and nothing changes (R21; log entry 4). -/
def runOwner (code : Nat) (owner : List Byte → State → Answer × State) (s : State) : State :=
  match headCommand s with
  | some f =>
    if f.code = code ∧ mayExecute s = true then
      let r := owner f.args (beginExecution s)
      endWithReply f.tag f.code r.1 r.2
    else s
  | none => s

/-- A command's owner behind its layout: arguments of another number of bytes are refused with BAD_ARGUMENT before
anything else (R191). -/
def withArity (arity : Nat) (owner : List Byte → State → Answer × State) (args : List Byte) (s : State) :
    Answer × State :=
  if args.length = arity then owner args s else (refused .badArgument, s)

/-- Execution of the command with this code and number of argument bytes (R21, R191). -/
def runCommand (code arity : Nat) (owner : List Byte → State → Answer × State) (s : State) : State :=
  runOwner code (withArity arity owner) s

/-- CONTROL ERROR: the control error counter rises by one and the condition occurs (R22, R43). -/
def controlError (s : State) : State :=
  occur .controlError (s.withCpr { s.cpr with controlErrors := bump16 s.cpr.controlErrors })

end Sys2Proof.Machine
end

