-- ==== Sys2Proof/Machine/Sensors.lean ====
section
/-! DEFINITION. The filters of the sensor inputs (R119, R168, R183): what a stretch of time at one level adds to a
filter, when a filter will have an event, and a level that an input takes. -/

namespace Sys2Proof.Machine

open Sys2Proof

/-! ## Filters as time passes -/

/-- An input sampled at every count shows its level for `n` counts: the fourth active sample in a row after an inactive
one is an edge, which waits for its row (R119). -/
def passEdge (n : Nat) (f : EdgeFilter) : EdgeFilter :=
  if n = 0 then f
  else if f.shown = false then { f with run := 0 }
  else
    { f with
      run := min Config.filterSamples (f.run + n)
      fired := f.fired || decide (f.run < Config.filterSamples ∧ Config.filterSamples ≤ f.run + n) }

/-- The moment of the edge that waits, or of the one that comes if the input goes on showing its level (R119). -/
def edgeMoment (now : Nat) (f : EdgeFilter) : Option Nat :=
  if f.fired then some now
  else if f.shown = true ∧ f.run < Config.filterSamples then some (counts (wholeCounts now + (Config.filterSamples - f.run)))
  else none

/-- The samples of the inputs that are sampled at every 100th count, up to a moment (R168, R183). -/
def slowSamples (t : Nat) : Nat := wholeCounts t / Config.samplePeriod

/-- An input sampled at every 100th count shows its level from the moment `now` to the moment `t`: the fourth sample in
a row that differs from the filtered level changes it (R168, R183). A change to a level that is `used` waits for its
row. -/
def passLevel (used : Bool → Bool) (now t : Nat) (f : LevelFilter) : LevelFilter :=
  let n := slowSamples t - slowSamples now
  if n = 0 then f
  else if f.shown = f.level then { f with run := 0 }
  else if f.run + n < Config.filterSamples then { f with run := f.run + n }
  else { f with level := f.shown, run := 0, fired := f.fired || used f.shown }

/-- The moment of the change that waits, or of the one that comes if the input goes on showing its level (R168,
R183). -/
def changeMoment (used : Bool → Bool) (now : Nat) (f : LevelFilter) : Option Nat :=
  if f.fired then some now
  else if f.shown ≠ f.level ∧ used f.shown = true then
    some (counts ((slowSamples now + max 1 (Config.filterSamples - f.run)) * Config.samplePeriod))
  else none

/-- A change of the interlock's level is used whichever it is (R183). -/
def either (_ : Bool) : Bool := true

/-- The sensors as the clock moves from `now` to `t`: a change to active is a perf edge or a done indication, a change
to not engaged is watched, and both changes of the interlock count (R119, R168, R172, R183). -/
def passSensors (now t : Nat) (f : Sensors) : Sensors :=
  { f with
    beam := passEdge (wholeCounts t - wholeCounts now) f.beam
    index := passEdge (wholeCounts t - wholeCounts now) f.index
    perf := passLevel id now t f.perf
    pin := passLevel not now t f.pin
    stageDone := passLevel id now t f.stageDone
    interlock := passLevel either now t f.interlock }

/-! ## Inputs and what is taken from a filter -/

/-- An input of the sensors takes its level, and a block that is being sent has gone out; what the inbound lane brings
is none of theirs. -/
def showInput (sending : Bool) (i : Input) (f : Sensors) : Sensors :=
  match i with
  | .beam b => { f with beam := { f.beam with shown := b } }
  | .index b => { f with index := { f.index with shown := b } }
  | .perf b => { f with perf := { f.perf with shown := b } }
  | .pin b => { f with pin := { f.pin with shown := b } }
  | .stageDone b => { f with stageDone := { f.stageDone with shown := b } }
  | .interlock b => { f with interlock := { f.interlock with shown := b } }
  | .sent => { f with sent := sending }
  | .data _ | .idle | .transition | .quiet => f

/-- A filter of edges whose edge has been taken. -/
def edgeTaken (f : EdgeFilter) : EdgeFilter := { f with fired := false }

/-- A filter of levels whose change has been taken. -/
def changeTaken (f : LevelFilter) : LevelFilter := { f with fired := false }

/-- The inputs right after power-on at the moment `now`: every filter starts anew, each input shows what it showed, and
what has been brought is still to come, timed from power-on (R34; log entry 28). -/
def restartSensors (now : Nat) (f : Sensors) : Sensors :=
  { beam := { EdgeFilter.initial with shown := f.beam.shown }
    index := { EdgeFilter.initial with shown := f.index.shown }
    perf := { LevelFilter.initial with shown := f.perf.shown }
    pin := { LevelFilter.initial with shown := f.pin.shown }
    stageDone := { LevelFilter.initial with shown := f.stageDone.shown }
    interlock := { LevelFilter.initial with shown := f.interlock.shown }
    sent := false
    coming := f.coming.map fun e => (e.1 - now, e.2) }

end Sys2Proof.Machine
end

