-- ==== Sys2Proof/Machine/Transfer.lean ====
section
/-! DEFINITION. The exposure transfer (Chapter 4): the compiled lookup, the line offset, the rung, the duty,
and what a lane hands the Pulse Former for each position of a line. -/

namespace Sys2Proof.Machine

open Sys2Proof

/-! ## Stages 1 and 2: the compile (R49, R58, R59) -/

/-- `n / m` rounded half up (R59). -/
def roundHalfUp (n m : Nat) : Nat := (2 * n + m) / (2 * m)

/-- The entry for a density above the first point `p` and on the curve that goes on with `rest`:
interpolation on the one segment that holds it, or the last point with the clip flag (R58, R59). -/
def onCurve (d : Nat) (p : CurvePoint) : List CurvePoint → Compiled
  | [] => .level p.exposure true
  | q :: rest =>
    if d ≤ q.density then
      .level (p.exposure + roundHalfUp ((d - p.density) * (q.exposure - p.exposure)) (q.density - p.density)) false
    else onCurve d q rest

/-- The compiled entry of a density on a stock curve (R58). -/
def compileEntry (curve : List CurvePoint) (d : Nat) : Compiled :=
  match curve with
  | [] => .base
  | p :: rest => if d ≤ p.density then .base else onCurve d p rest

/-- The CDT index of a colour's code value: 4096 × colour + cv (R36). -/
def cdtIndex (c : Colour) (cv : Nat) : Nat := Config.codeValues * colourCode c + cv

/-- The compile's result for a slot: each colour's entries from its CDT and SCT (R49). -/
def compiledTables (p : ProfileSlot) : PerColour (Table Compiled) :=
  .of fun c => tableOf .base Config.codeValues fun cv =>
    compileEntry (p.sct.get c) (tableRead 0 p.cdt (cdtIndex c cv))

/-! ## Stage 3: the offset (R62, R65) -/

/-- The line offset of a colour (R62). -/
def lineOffset (trim drift stamp facetTrim : Int) : Int := trim + (drift - stamp) + facetTrim

/-- The exposure of a pixel, limited to 0..4095 (R65). -/
def exposureOf (level : Nat) (offset : Int) : Nat := (limitInt 0 4095 (level + offset)).toNat

/-! ## Stage 4: the rung (R66) -/

/-- The highest-numbered rung whose power is at least `e`, with its number and code; none where no rung's
is (R66, R67). `r` is the number of the list's first rung. -/
def chooseRung (e : Nat) (r : Nat) : List Rung → Option (Nat × Rung)
  | [] => none
  | g :: rest => if e ≤ g.power then some ((chooseRung e (r + 1) rest).getD (r, g)) else none

/-! ## Stage 5: the duty (R68) -/

/-- 255 × 10^(−q/1000) rounded half up: the largest d with d − 1/2 at most that value, that is with
(2d − 1)^1000 × 10^q at most 510^1000 (R68). -/
def duty (q : Nat) : Nat :=
  [128, 64, 32, 16, 8, 4, 2, 1].foldl
    (fun d b => if (2 * (d + b) - 1) ^ 1000 * 10 ^ q ≤ 510 ^ 1000 then d + b else d) 0

/-! ## What a lane hands on (R70) -/

/-- A lane's result for one position: dark, or a rung with its DAC code and a duty, and what the pixel counts
as when it is placed (R70, R71). -/
inductive LaneResult where
  | dark
  | pulse (rung dac ticks : Nat) (densityClip powerClip floorClamp : Bool)
deriving DecidableEq, Repr

/-- Stages 4 and 5 on an exposure (R66 to R69). -/
def onLadder (rungs : List Rung) (e : Nat) (clip : Bool) : LaneResult :=
  match rungs with
  | [] => .dark
  | top :: _ =>
    match chooseRung e 0 rungs with
    | none => .pulse 0 top.dac 255 clip true false
    | some (r, g) =>
      let d := duty (g.power - e)
      if d < 16 then .pulse r g.dac 16 clip false true else .pulse r g.dac d clip false false

/-- The transfer of one code value: its compiled entry, the line offset and the ladder (R60, R65 to R69). -/
def transfer (entry : Compiled) (offset : Int) (rungs : List Rung) : LaneResult :=
  match entry with
  | .base => .dark
  | .level l clip => onLadder rungs (exposureOf l offset) clip

/-- The code a line slot holds for a pixel, none where its segment is absent. -/
def slotCode (sl : LineSlot) (c : Colour) (x : Nat) : Option Nat :=
  match sl.segments[x / Config.segmentPixels]? with
  | some (some codes) => (codes[x % Config.segmentPixels]?).map fun px => px.get c
  | _ => none

/-- A segment is present in a line slot. -/
def segmentPresent (sl : LineSlot) (x : Nat) : Bool :=
  match sl.segments[x / Config.segmentPixels]? with
  | some (some _) => true
  | _ => false

/-- The code value of image pixel `x` from the lane's source, none where the pixel is dark (R56). -/
def pixelCode (l : Lst) (lane : Lane) (c : Colour) (x : Nat) : Option Nat :=
  match lane.source with
  | .dark => none
  | .fill code => some code
  | .hold => tableRead none lane.holdBuffer x
  | .slot i =>
    match l.slots[i]? with
    | some sl => if segmentPresent sl x then slotCode sl c x else tableRead none lane.holdBuffer x
    | none => none

/-- A lane's result on position `p` of a line of `width` pixels, with horizontal offset `hoff` and the tables
of the profile slot (R56, R57, R70, R142). -/
def laneResult (l : Lst) (prof : ProfileSlot) (lane : Lane) (c : Colour) (hoff width p : Nat) : LaneResult :=
  if p < hoff ∨ width ≤ p - hoff then .dark
  else
    match pixelCode l lane c (p - hoff) with
    | none => .dark
    | some cv => transfer (tableRead .base (prof.compiled.get c) cv) lane.offset (prof.plt.get c).rungs

/-- The profile slot a lane uses (R57). -/
def laneProfile (s : State) (lane : Lane) : ProfileSlot := profile s (lane.slot.getD 0)

/-- The result of colour `c`'s lane on position `p`. -/
def resultAt (s : State) (c : Colour) (width p : Nat) : LaneResult :=
  laneResult s.lst (laneProfile s (s.lanes.get c)) (s.lanes.get c) c (s.pfm.lanes.get c).horizontal width p

/-- The rung, with its code, of a result that is not dark. -/
def resultRung : LaneResult → Option (Nat × Nat)
  | .dark => none
  | .pulse r dac _ _ _ _ => some (r, dac)

/-- The rung of a lane's first result on the line that is not dark (R70, R144). -/
def firstRung (s : State) (c : Colour) (width : Nat) : Option (Nat × Nat) :=
  (List.range (width + Config.extraPositions)).findSome? fun p => resultRung (resultAt s c width p)

end Sys2Proof.Machine
end

