-- ==== Sys2Proof/Machine/Pulse.lean ====
section
/-! DEFINITION. Pulse formation (Chapter 8) and the passing of time: the placing of a line's positions, the
rung guard, the outputs, and the moments of the facet's windows. -/

namespace Sys2Proof.Machine

open Sys2Proof

/-! ## Placing a pulse (R143, R145) -/

/-- The ticks a pulse of `d` ticks occupies, first and last, with rung guard `g` where the rung changed, and
whether it is cut (R143, R145). -/
def placePulse (d g : Nat) (changed : Bool) : Nat × Nat × Bool :=
  let a := (256 - d) / 2
  if !changed || decide (g ≤ a) then (a, a + d - 1, false)
  else if g + d - 1 ≤ 255 then (g, g + d - 1, false)
  else (g, 255, true)

/-- A colour of the PFM after it begins to place a result (R143 to R146). -/
def placeLane (guardTicks : Nat) (pl : PulseLane) : LaneResult → PulseLane
  | .dark => { pl with pulse := none }
  | .pulse r dac d _ _ _ =>
    let changed := decide (pl.rung.map Prod.fst ≠ some r)
    let t := placePulse d guardTicks changed
    { pl with
      rung := if changed then some (r, dac) else pl.rung
      amplitude := if changed then dac else pl.amplitude
      pulse := some (t.1, t.2.1)
      truncations := if t.2.2 then bump32 pl.truncations else pl.truncations }

/-- A lane after one of its results begins to be placed: the pixel is counted (R71). -/
def countLane (lane : Lane) : LaneResult → Lane
  | .dark => lane
  | .pulse _ _ _ density power floor =>
    { lane with
      densityClips := if density then bump32 lane.densityClips else lane.densityClips
      powerClips := if power then bump32 lane.powerClips else lane.powerClips
      floorClamps := if floor then bump32 lane.floorClamps else lane.floorClamps }

/-- Placing of position `p` begins on every lane. -/
def placePosition (width : Nat) (s : State) (p : Nat) : State :=
  let r := fun c => resultAt s c width p
  (s.withLanes (.of fun c => countLane (s.lanes.get c) (r c))).withPfm
    { s.pfm with lanes := .of fun c => placeLane s.pfm.rungGuard (s.pfm.lanes.get c) (r c) }

/-- Positions of a line whose placing has begun after `ticks` ticks (R141). -/
def positionsBegun (ln : PlacedLine) (ticks : Nat) : Nat :=
  if ticks < ln.leadIn then 0
  else min (ln.width + Config.extraPositions) ((ticks - ln.leadIn) / Config.ticksPerPixel + 1)

/-- A colour's pulse output at tick `t` of the position being placed (R143). -/
def openAt (t : Nat) (pl : PulseLane) : PulseLane :=
  { pl with pulseOpen := match pl.pulse with
      | some (a, b) => decide (a ≤ t ∧ t ≤ b)
      | none => false }

/-- Of a line, `n` positions have begun after `ticks` ticks: those not yet placed are placed, and the pulse outputs
stand as they do at this tick of the last (R141, R143). -/
def placeTo (ln : PlacedLine) (ticks n : Nat) (s : State) : State :=
  if n = 0 then s
  else
    let s1 := (List.range' ln.placed (n - ln.placed)).foldl (placePosition ln.width) s
    let tick := ticks - ln.leadIn - Config.ticksPerPixel * (n - 1)
    s1.withPfm { s1.pfm with
      line := some { ln with placed := max ln.placed n }
      lanes := s1.pfm.lanes.map (openAt tick) }

/-- The line in progress is placed up to the present moment: every position whose pixel period has begun
(R141). -/
def placeReached (s : State) : State :=
  match s.pfm.line with
  | none => s
  | some ln => placeTo ln (ticksSince ln.edge s) (positionsBegun ln (ticksSince ln.edge s)) s

/-- The clock moves on to a moment; the sensors are sampled on the way, and what is being placed moves with it (R118,
R119, R139, R168). -/
def advanceTo (t : Nat) (s : State) : State :=
  placeReached ((s.withSen (passSensors s.clock (max s.clock t) s.sen)).withClock (max s.clock t))

/-! ## Outputs (R144, R148) -/

/-- The DAC code of a lane's rung in effect, 0 where it is none (R144). -/
def rungCode (pl : PulseLane) : Nat := (pl.rung.map Prod.snd).getD 0

/-- A colour's pulse output closes; its amplitude is kept. -/
def closePulse (pl : PulseLane) : PulseLane := { pl with pulseOpen := false, pulse := none }

/-- A colour's outputs go dark: the pulse closes and the amplitude is 0 (R148). -/
def darken (pl : PulseLane) : PulseLane := { closePulse pl with amplitude := 0 }

/-- A colour's amplitude returns to its rung in effect, or 0; under the blank latch it stays 0 (R144, R148). -/
def restoreAmplitude (latched : Bool) (pl : PulseLane) : PulseLane :=
  { pl with amplitude := if latched then 0 else rungCode pl }

/-- A line being written is stopped at the position reached: the pulse outputs close, no further position is
placed, and no line is marked as being written (R91, R137, R148). -/
def stopLine (s : State) : State :=
  match s.pfm.line with
  | none => s.withStu { s.stu with writing := none }
  | some _ =>
    (s.withPfm { s.pfm with line := none, lanes := s.pfm.lanes.map closePulse }).withStu
      { s.stu with writing := none }

/-- The outputs go dark as the blank latch is set; a line being placed is stopped (R148, R185). An open
monitor window has met the latch (R147). -/
def darkenOutputs (s : State) : State :=
  let s := stopLine s
  s.withPfm { s.pfm with
    lanes := s.pfm.lanes.map darken
    request := s.pfm.request.map fun q => if q.opened then { q with sawBlank := true } else q }

end Sys2Proof.Machine
end

