-- ==== Sys2Proof/Machine/Frames.lean ====
section
/-! DEFINITION. What the meanings share about frame records: closing a data side, the report, an abort, and
a record leaving the queue (Chapters 5 and 6). -/

namespace Sys2Proof.Machine

open Sys2Proof

/-! ## Closing a data side (R82, R110) -/

/-- The assembling slot of a frame, which holds its line k_cur (R102). -/
def assembling (fsn : Nat) (sl : LineSlot) : Bool := sl.state == .assembling && sl.fsn == some fsn

/-- A record whose data side closes with every line decided: the line at k_cur is partial where its slot held
some segments, and every other undecided line is missing (R110). -/
def closedRecord (hasSlot : Bool) (r : FrameRecord) : FrameRecord :=
  match r.data with
  | .closed => r
  | .pending => { r with data := .closed, kCur := r.dataLines, missing := r.missing + r.dataLines }
  | .opened =>
    if hasSlot then
      { r with data := .closed, kCur := r.dataLines, partialLines := r.partialLines + 1,
               missing := r.missing + (r.dataLines - r.kCur - 1) }
    else
      { r with data := .closed, kCur := r.dataLines, missing := r.missing + (r.dataLines - r.kCur) }

/-- The data side of the record of an FSN closes, not by an abort: an ASSEMBLING slot becomes PARTIAL and is
kept (R82, R110). -/
def closeData (fsn : Nat) (s : State) : State :=
  let hasSlot := s.lst.slots.any (assembling fsn)
  let s := changeRecord fsn (closedRecord hasSlot) s
  s.withLst { s.lst with
    slots := s.lst.slots.map fun sl => if assembling fsn sl then { sl with state := .incomplete } else sl }

/-- A record whose data side an abort closes: every line not yet decided is missing (R82, R89, R110). -/
def abortedRecord (r : FrameRecord) : FrameRecord :=
  match r.data with
  | .closed => r
  | .pending => { r with data := .closed, kCur := r.dataLines, missing := r.missing + r.dataLines, dataAborted := true }
  | .opened =>
    { r with data := .closed, kCur := r.dataLines, missing := r.missing + (r.dataLines - r.kCur),
             dataAborted := true }

/-! ## The report (R96) -/

/-- No pixel counted. -/
def noCounts : PixelCounts := ⟨0, 0, 0, 0⟩

/-- Each colour's counts, from its lane and the PFM (R72, R146). -/
def pixelCounts (s : State) : PerColour PixelCounts :=
  .of fun c => ⟨(s.lanes.get c).densityClips, (s.lanes.get c).powerClips, (s.lanes.get c).floorClamps,
                (s.pfm.lanes.get c).truncations⟩

/-- The scan line count of a record: H + the largest vertical offset, in effect once it is EXPOSING and
pending before (R87, R96). -/
def scanLines (r : FrameRecord) (s : State) : Nat :=
  match r.setup with
  | some u => r.height + largest u.vertical
  | none => r.height + largest s.stu.verticalPending

/-- The report of a record (R96): slips and counts are read from the STU, the lanes and the PFM where the
record is EXPOSING, and are 0 otherwise. -/
def reportOf (r : FrameRecord) (cause : Option AbortCause) (s : State) : Report :=
  let live := r.exposure == .exposing
  { fsn := r.fsn, tag := r.tag, slot := r.slot, abortCause := cause,
    sideAtAbort := if cause.isSome then some r.exposure else none,
    abortLine := if cause.isSome && live then some (s.stu.writing.getD s.stu.scanCounter) else none,
    midLine := if cause.isSome && live then some s.stu.writing.isSome else none,
    dataOutcome := dataOutcome r, complete := r.complete, partialLines := r.partialLines,
    missing := r.missing, excess := r.excess, staleLadder := r.staleLadder,
    linesWritten := r.linesWritten, scanLines := scanLines r s,
    slips := if live then s.stu.slips else .zero,
    counts := if live then pixelCounts s else .all noCounts,
    setup := r.setup }

/-! ## Leaving the queue -/

/-- The record of an FSN leaves the queue: its slot's pin count falls and its line slots are freed (R51, R88,
R112). -/
def removeRecord (r : FrameRecord) (s : State) : State :=
  releaseFrame r.fsn (unpin r.slot (s.withFq { s.fq with records := s.fq.records.filter fun q => q.fsn != r.fsn }))

/-- The line wait timer stops (R136, R137). -/
def stopLineWait (s : State) : State := s.withStu { s.stu with lineWait := none }

/-- From an abort on, an advance for the record's FSN is held with origin COMMAND (R180). -/
def orphanAdvance (fsn : Nat) (s : State) : State :=
  if s.ftc.origin = some (.frame fsn) then s.withFtc { s.ftc with origin := some .command } else s

/-- A record is aborted (R89). -/
def abortRecord (r : FrameRecord) (cause : AbortCause) (s : State) : State :=
  let r' := abortedRecord r
  let rep := reportOf r' (some cause) s
  let s := if r.data = .opened then s.withLst { s.lst with abortedFsn := some r.fsn } else s
  let s := if r.exposure = .exposing then stopLineWait (stopLine s) else s
  let s := orphanAdvance r.fsn (removeRecord r s)
  let s := offerReport rep s
  if r.exposure = .positioning ∨ r.exposure = .exposing then s.withFq { s.fq with held := true } else s

/-- The EXPOSING record, where there is one, is aborted (R90). -/
def abortExposing (cause : AbortCause) (s : State) : State :=
  match exposing s with
  | some r => abortRecord r cause s
  | none => s

/-- The oldest record is aborted where it is POSITIONING or EXPOSING (R173). -/
def abortMoving (cause : AbortCause) (s : State) : State :=
  match oldest s with
  | some r => if r.exposure = .positioning ∨ r.exposure = .exposing then abortRecord r cause s else s
  | none => s

/-- The exposing record has completed its last scan line: it goes FINISHED, its counts are read into its
report, and the report takes a free entry, or waits for one behind the reports of records that ended before
(R87, R88). -/
def finishRecord (r : FrameRecord) (s : State) : State :=
  let rep := reportOf r none s
  let s := stopLineWait s
  if entryFree s && s.fq.backlog.isEmpty then enqueue (.report rep) (removeRecord r s)
  else
    changeRecord r.fsn (fun q => { q with exposure := .finished, step := none, report := some rep,
                                          behind := s.fq.backlog.length }) s

end Sys2Proof.Machine
end

