-- ==== Sys2Proof/Machine/Monitor.lean ====
section
/-! DEFINITION. What the meanings share about the Laser Monitor (Chapter 9): which loops run, what a monitor
request names, the abandonment of a measurement, and the limits of drift. -/

namespace Sys2Proof.Machine

open Sys2Proof

/-- The state with one colour's channel changed. -/
def changeChannel (c : Colour) (f : Channel → Channel) (s : State) : State :=
  s.withLmn { s.lmn with channels := s.lmn.channels.set c (f (s.lmn.channels.get c)) }

/-- A colour's capture may proceed: polygon LOCKED, latch clear, no record EXPOSING (R155). -/
def captureProceeds (s : State) : Bool :=
  s.stu.polygon == .locked && !s.blc.latch && !isExposing s

/-- What all drift loops need: latch clear, polygon LOCKED, no measurement running (R159). -/
def loopsAllowed (s : State) : Bool :=
  !s.blc.latch && s.stu.polygon == .locked && s.lmn.measurement.isNone

/-- A colour's drift loop runs (R159). -/
def loopRuns (s : State) (c : Colour) : Bool :=
  (s.lmn.channels.get c).state == .ready && loopsAllowed s

/-- A channel with its drift accumulator emptied (R159). -/
def emptyAccumulator (ch : Channel) : Channel := { ch with accCount := 0, accSum := 0 }

/-- The accumulators of the colours whose loop does not run are emptied (R159). -/
def emptyStopped (s : State) : State :=
  s.withLmn { s.lmn with channels := .of (fun c =>
    if loopRuns s c then s.lmn.channels.get c else emptyAccumulator (s.lmn.channels.get c)) }

/-! ## The monitor request (R152, R163) -/

/-- The rung a measurement fires for a colour in its present step, where the colour's ladder has it and its
count has not reached 64 (R163). -/
def measureShot (s : State) (m : Measurement) (c : Colour) : Option MonitorShot :=
  match ((profile s m.slot).plt.get c).rungs[m.step]? with
  | some g => if m.count.get c < Config.captureSamples then some ⟨g.dac, .measure⟩ else none
  | none => none

/-- What a colour needs of the coming retrace (R152). -/
def neededShot (s : State) (c : Colour) : Option MonitorShot :=
  let ch := s.lmn.channels.get c
  match s.lmn.measurement with
  | some m => measureShot s m c
  | none =>
    match ch.state with
    | .capturing =>
      if captureProceeds s && decide (ch.captureCount < Config.captureSamples) then
        some ⟨ch.captureCode.getD 0, .capture⟩ else none
    | .ready =>
      if loopRuns s c && decide (s.lmn.retraceCount = 7) then some ⟨ch.captureCode.getD 0, .drift⟩ else none
    | _ => none

/-- The request that names each colour needing a pulse, not yet bound to an edge (R147, R152). -/
def newRequest (s : State) : MonitorRequest :=
  { shots := .of (neededShot s), bound := none, opened := false, sawBlank := false, sawLine := false,
    sawEdge := false, brought := none }

/-- The LMN composes the next retrace's request where none is held and a colour needs a pulse (R152). -/
def composeRequest (s : State) : State :=
  match s.pfm.request with
  | some _ => s
  | none =>
    if anyColour (fun c => (neededShot s c).isSome) then
      s.withPfm { s.pfm with request := some (newRequest s) }
    else s

/-- What ends a step: a request is composed where one is needed, and the owners report what has changed
(R26, R152). -/
def conclude (s : State) : State := observe (composeRequest s)

/-- A held request whose pulses for a use, of the colours chosen, no longer serve that use: it stays held, and
their readings will be discarded (R152, R156, R165). -/
def endUse (chosen : Colour → Bool) (use : MonitorUse → Bool) (s : State) : State :=
  s.withPfm { s.pfm with request := s.pfm.request.map fun q =>
    { q with shots := .of fun c => (q.shots.get c).map fun shot =>
        if chosen c && use shot.use then { shot with use := .ended } else shot } }

/-! ## Measurement (R165) -/

/-- A measurement ends with a result: the slot returns to its prior state, the measurement becomes idle, the
readings of a request still held are discarded, and the MEASUREMENT value becomes the result with the slot
(R52, R164, R165). -/
def endMeasurement (m : Measurement) (r : MeasureResult) (s : State) : State :=
  let s := setProfile m.slot (restorePrior (profile s m.slot)) s
  let s := endUse (fun _ => true) (fun u => u == .measure) s
  s.withLmn { s.lmn with measurement := none, value := .result r m.slot }

/-- A running measurement is abandoned (R165). -/
def abandonMeasurement (s : State) : State :=
  match s.lmn.measurement with
  | some m => endMeasurement m .abandoned s
  | none => s

/-! ## Numbers of the drift loop -/

/-- A sum over 16 rounded half away from zero (R160). -/
def meanOf16 (sum : Int) : Int := if 0 ≤ sum then (sum + 8) / 16 else -((-sum + 8) / 16)

/-- drift_c after an update toward a mean: by at most 2, within −250..+250 (R160). -/
def movedDrift (drift mean : Int) : Int :=
  limitInt (-250) 250 (if drift < mean then drift + min 2 (mean - drift) else drift - min 2 (drift - mean))

/-- A mean lies beyond a drift limit (R161). -/
def isBeyond (limitMl : Nat) (mean : Int) : Bool := decide (limitMl < mean.natAbs)

/-- A monitor reading: the average limited to 0..4095 (R151). -/
def readingOf (average : Int) : Nat := (limitInt 0 4095 average).toNat

/-- A sum of 64 readings over 64, rounded half up (R155, R163). -/
def meanOf64 (sum : Nat) : Nat := (sum + 32) / 64

/-- A measured power: the mean plus the monitor offset, limited to 0..4095 (R163). -/
def measuredPower (sum : Nat) (monitorOffset : Int) : Nat :=
  (limitInt 0 4095 (meanOf64 sum + monitorOffset)).toNat

end Sys2Proof.Machine
end

