-- ==== Sys2Proof/Machine/Protect.lean ====
section
/-! DEFINITION. The protective operations the meanings share: a trigger reaching the Blanking Control
(Chapter 11), a transport fault (R173), and the loss of lock and of facet sync (R121, R127). -/

namespace Sys2Proof.Machine

open Sys2Proof

/-- The six trigger sources, in the order of R184. -/
inductive TriggerSource where
  | interlock | polygon | sync | transport | drift | link
deriving DecidableEq, Repr

/-- A source's bit, in a source set and in a cause set alike (R190). -/
def sourceBit : TriggerSource → Nat
  | .interlock => 0 | .polygon => 1 | .sync => 2 | .transport => 3 | .drift => 4 | .link => 5

/-- The cause set that holds one source (R182). -/
def causeOf (t : TriggerSource) : CauseSet := 1#8 <<< sourceBit t

/-- A source is enabled when it is INTERLOCK or in the source mask (R184). -/
def sourceEnabled (b : Blc) (t : TriggerSource) : Bool := t == .interlock || b.mask.getLsbD (sourceBit t)

/-- A source's lasting trigger condition is present (R184, R188). LINK presents none. -/
def conditionPresent (s : State) : TriggerSource → Bool
  | .interlock => s.blc.interlockOpen
  | .polygon => s.stu.polygon != .locked
  | .sync => s.stu.facetSync == .hunt
  | .transport => s.ftc.state == .fault
  | .drift => anyColour fun c => (s.lmn.channels.get c).beyond
  | .link => false

/-- The six sources. -/
def triggerSources : List TriggerSource := [.interlock, .polygon, .sync, .transport, .drift, .link]

/-- The source set of the sources that have a property (R190). -/
def sourceSet (p : TriggerSource → Bool) : SourceSet :=
  triggerSources.foldl (fun acc t => if p t then acc ||| (1#6 <<< sourceBit t) else acc) 0

/-- The clear blank latch is set by a source: the outputs go dark, the exposing record is aborted, a running
measurement is abandoned and the drift loops stop (R185, R90). -/
def setBlank (t : TriggerSource) (s : State) : State :=
  let s := s.withBlc { s.blc with latch := true, causes := causeOf t }
  let s := abortExposing (if t = .transport then .transport else .blanked) s
  emptyStopped (abandonMeasurement (darkenOutputs s))

/-- A trigger event reaches the BLC: a disabled source's is not used, a clear latch is set, and a set latch
takes the source among its causes (R184 to R186). -/
def trigger (t : TriggerSource) (s : State) : State :=
  if sourceEnabled s.blc t then
    if s.blc.latch then s.withBlc { s.blc with causes := s.blc.causes ||| causeOf t } else setBlank t s
  else s

/-- The FTC as it enters FAULT (R173). -/
def faulted (cause : FaultCause) (f : Ftc) : Ftc :=
  { f with state := .fault, faultCause := some cause, phase := none, origin := none, counter := 0,
           perfTimer := none, settleTimer := none, motor := false }

/-- The transport enters FAULT, unless it already is in FAULT: the trigger is signalled, and a record
POSITIONING or EXPOSING is aborted with TRANSPORT (R173, R90). -/
def enterFault (cause : FaultCause) (s : State) : State :=
  if s.ftc.state = .fault then s
  else abortMoving .transport (trigger .transport (s.withFtc (faulted cause s.ftc)))

/-- The polygon loses lock: it goes ACQUIRING with its run count and acquire timer restarted, a measurement
is abandoned, the drift loops stop, and the POLYGON trigger is signalled (R121, R159, R165). -/
def loseLock (s : State) : State :=
  let s := s.withStu { s.stu with polygon := .acquiring, runCount := 0, acquireTimer := some (timebase s) }
  trigger .polygon (emptyStopped (abandonMeasurement s))

/-- Facet sync is lost with the SYNC trigger; `atIndex` says that an index opens the new hunt's first
revolution (R127). -/
def loseSync (atIndex : Bool) (s : State) : State :=
  trigger .sync (s.withStu { s.stu with facetSync := .hunt, goodRevs := 0, revOpen := atIndex })

end Sys2Proof.Machine
end

