-- ==== Sys2Proof/Machine/Motion.lean ====
section
/-! DEFINITION. What the meanings share about the gate stage, an advance and the positioning of a record
(R85, R170, R177 to R180). -/

namespace Sys2Proof.Machine

open Sys2Proof

/-! ## The gate stage -/

/-- The stage is busy: HOMING or STEPPING (10.4). -/
def stageBusy (f : Ftc) : Bool := f.stage == .homing || f.stage == .stepping

/-- The stage position while homing: the one it had, or, from UNKNOWN, a free value (R167; log entry 13). -/
def homingPosition (s : State) : Nat := s.ftc.position.getD (Config.openStagePosition s.free).val

/-- Homing starts: the home line is driven and the stage timer starts (R177). -/
def startHoming (s : State) : State :=
  let p := homingPosition s
  let used := if s.ftc.position.isNone then s.free + 1 else s.free
  (s.withFtc { s.ftc with stage := .homing, position := some p, stageTimer := some (timebase s),
                          homeWaiting := false }).withFree used

/-- Homing is requested: it starts at once, waits for a step in flight, or joins a homing in progress (R177). -/
def requestHoming (s : State) : State :=
  match s.ftc.stage with
  | .idle | .unknown => startHoming s
  | .stepping => s.withFtc { s.ftc with homeWaiting := true }
  | .homing => s

/-- A stage step is requested: it starts on an IDLE stage and is discarded on any other (R178). -/
def requestStep (s : State) : State :=
  match s.ftc.stage with
  | .idle => s.withFtc { s.ftc with stage := .stepping, stageTimer := some (timebase s) }
  | _ => s

/-! ## Advance and positioning -/

/-- An advance is accepted: the transport goes ADVANCING in stage return and requests homing (R170). -/
def beginAdvance (perfs : Nat) (origin : AdvanceOrigin) (s : State) : State :=
  requestHoming (s.withFtc { s.ftc with state := .advancing, phase := some .stageReturn,
                                        origin := some origin, counter := perfs })

/-- The positioning step of a record. -/
def setStep (fsn : Nat) (p : PositionStep) (s : State) : State :=
  changeRecord fsn (fun r => { r with exposure := .positioning, step := some p }) s

/-- A POSITIONING record goes on from the transport's state (R85): it is aborted, waits for a commanded
advance, requests its advance, or requests homing. -/
def positionOn (r : FrameRecord) (s : State) : State :=
  match s.ftc.state with
  | .fault => abortRecord { r with exposure := .positioning } .transport s
  | .advancing | .settling => setStep r.fsn .waitTransport s
  | .unregistered =>
    if r.advance = 0 then abortRecord { r with exposure := .positioning } .notRegistered s
    else beginAdvance r.advance (.frame r.fsn) (setStep r.fsn .advancing s)
  | .registered =>
    if r.advance = 0 then requestHoming (setStep r.fsn .homing s)
    else beginAdvance r.advance (.frame r.fsn) (setStep r.fsn .advancing s)

/-- A record is POSITIONING at a step. -/
def atStep (p : PositionStep) (r : FrameRecord) : Bool := r.exposure == .positioning && r.step == some p

/-- The record that may begin positioning: the oldest, WAITING, in a queue that is not HELD (R84). -/
def positionable (s : State) : Option FrameRecord :=
  match oldest s with
  | some r => if r.exposure = .waiting ∧ s.fq.held = false then some r else none
  | none => none

/-- The record that may enter EXPOSING: the oldest, POSITIONING and homed, while no measurement runs (R86). -/
def exposable (s : State) : Option FrameRecord :=
  match oldest s with
  | some r => if atStep .homed r = true ∧ s.lmn.measurement = none then some r else none
  | none => none

/-- An advance has ended REGISTERED: the record that asked for it requests homing, and a record that waited
for a commanded advance goes on (R85, R180). -/
def advanceEnded (origin : Option AdvanceOrigin) (s : State) : State :=
  match oldest s with
  | none => s
  | some r =>
    if atStep .advancing r && origin == some (.frame r.fsn) then requestHoming (setStep r.fsn .homing s)
    else if atStep .waitTransport r then positionOn r s
    else s

/-- The settle timer has ended: REGISTERED where the pins are engaged, which is reported before a record goes on,
otherwise FAULT with cause PIN (R169, R172). -/
def settleEnded (s : State) : State :=
  if s.sen.pin.level then
    let origin := s.ftc.origin
    advanceEnded origin
      (observe (s.withFtc { s.ftc with state := .registered, origin := none, settleTimer := none }))
  else enterFault .pin s

end Sys2Proof.Machine
end

