-- ==== Sys2Proof/Machine/Inputs.lean ====
section
/-! DEFINITION. The inputs and the passing of time: all that waits for its step, each with its moment; time, which passes
no moment of these (log entry 2); and what the inputs bring. -/

namespace Sys2Proof.Machine

open Sys2Proof

/-! ## What waits, and when -/

/-- The step that takes the lane's next event (R5 to R9). -/
def laneStep : LaneEvent → Instr
  | .markerFound kind length => .markerFound [] kind length
  | .slip => .syncSlip []
  | .tooLong => .lengthError []
  | .badBlock => .blockCrcFailure []
  | .breakEnd => .breakEnd []
  | .goodBlock kind payload =>
    if kind = 0x10 then .frame [] payload
    else if kind = 0x11 then .line [] payload
    else if kind = 0x12 then .fend [] payload
    else if kind = 0x20 then .controlBlock [] .command payload
    else if kind = 0x21 then .controlBlock [] .table payload
    else .unknownKind [] kind

/-- The steps that begin at the moment at which their conditions hold: a record's exposure and positioning, and the
grants of a free outbound entry (R16, R84, R86, R88). -/
def startSteps (s : State) : List (Bool × Instr) :=
  [((exposable s).isSome, .exposureStart), ((positionable s).isSome, .positioningStart),
   (entryFree s && reportWaiting s, .reportGranted),
   (s.cpr.waitingNotice.isSome && entryFree s && !reportWaiting s, .noticeGranted)]

/-- The steps that are due now: counts at their limits, the lane's next event, and what begins now. -/
def dueNow (s : State) : List Instr :=
  ((countSteps s).filter Prod.fst).map Prod.snd ++ (laneEvent s.lrx).toList.map laneStep ++
  ((startSteps s).filter Prod.fst).map Prod.snd

/-- The step that takes a done indication (R177, R178). -/
def doneStep (f : Ftc) : Instr := if f.stage = .stepping then .stepDone [] else .homingDone []

/-- The step that takes the interlock's change, the one that waits or the one that comes (R183). -/
def interlockStep (f : LevelFilter) : Instr :=
  if (if f.fired then f.level else f.shown) then .interlockClosed [] else .interlockOpen []

/-- The events of the sensors that wait, and those that come if the inputs go on showing their levels; and the end of
the block being sent (R13, R119, R168, R183). -/
def sensorSteps (s : State) : List (Nat × Option Instr) :=
  timed (edgeMoment s.clock s.sen.index) (some (.polygonIndex [])) ++
  timed (edgeMoment s.clock s.sen.beam) (some (.beamDetectEdge [])) ++
  timed (changeMoment id s.clock s.sen.perf) (some (.perfEdge [])) ++
  timed (changeMoment id s.clock s.sen.stageDone) (some (doneStep s.ftc)) ++
  timed (changeMoment not s.clock s.sen.pin) (some (.pinDisengaged [])) ++
  timed (changeMoment either s.clock s.sen.interlock) (some (interlockStep s.sen.interlock)) ++
  timed (if s.sen.sent then some s.clock else none) (some (.entrySent []))

/-- All that waits for its step, with its moment. -/
def waiting (s : State) : List (Nat × Option Instr) :=
  (dueNow s).map (fun i => (s.clock, some i)) ++ sensorSteps s ++ timerSteps s

/-! ## Time -/

/-- The moment up to which time can pass, towards a moment: no further than the first of what waits. -/
def stopBy (t : Nat) (s : State) : Nat := (waiting s).foldl (fun m e => min m e.1) t

/-- Time passes towards a moment, with no input (log entry 2). -/
def passTo (t : Nat) (s : State) : State := advanceTo (stopBy t s) s

/-! ## Inputs -/

/-- An input comes, now, and the LRX or a sensor takes it. -/
def inputComes (i : Input) (s : State) : State :=
  (s.withLrx (hear s.clock i s.lrx)).withSen (showInput s.rtx.sending i s.sen)

/-- What is still to come. -/
def withComing (es : List (Nat × Input)) (s : State) : State := s.withSen { s.sen with coming := es }

/-- Of the inputs still to come, those up to a moment come, each at its own, as far as time can pass. -/
def takeComing (t : Nat) : List (Nat × Input) → State → State
  | [], s => s
  | e :: rest, s =>
    if e.1 ≤ t ∧ e.1 ≤ (passTo e.1 s).clock then
      takeComing t rest (inputComes e.2 (withComing rest (passTo e.1 s)))
    else s

/-- Time passes towards a moment, with the inputs that come on the way (log entry 2). -/
def reach (t : Nat) (s : State) : State := passTo t (takeComing t s.sen.coming s)

/-- The moment up to which the inputs have been brought. -/
def broughtTo (s : State) : Nat := ((s.sen.coming.getLast?).map Prod.fst).getD s.clock

/-- A trace's inputs with their moments, from the moment at which it begins. -/
def momentsFrom (start : Nat) : Trace → List (Nat × Input)
  | [] => []
  | e :: rest => (start + counts e.1, e.2) :: momentsFrom (start + counts e.1) rest

/-- A trace is brought: it follows what has been brought before it. -/
def bring (seen : Trace) (s : State) : State := withComing (s.sen.coming ++ momentsFrom (broughtTo s) seen) s

/-- A trace is brought, and the inputs come as far as time can pass (log entry 2). -/
def sense (seen : Trace) (s : State) : State := reach (broughtTo (bring seen s)) (bring seen s)

/-- The end of a timer or a window, where it runs: time passes towards its moment, and there it has its effect (log
entry 2). -/
def atEnd (moment : Option Nat) (effect : State → State) (s : State) : State :=
  match moment with
  | some t => if t ≤ (reach t s).clock then effect (reach t s) else reach t s
  | none => s

end Sys2Proof.Machine
end

