-- ==== Sys2Proof/Machine/Link.lean ====
section
/-! DEFINITION. The Link Receiver's steps (Chapter 1, 1.2), and power-on. A row that the lane brings about takes effect
where its event is due once the trace has been sensed; otherwise the sensing alone stands (log entry 2). -/

namespace Sys2Proof.Machine

open Sys2Proof

/-- POWER_ON: every block takes its power-on values, and the sensor inputs show what they showed, and what has been
brought is still to come (R34). The queue of commands stays, and no free value that was taken is taken again (log entry 28). -/
def execPowerOn (s : State) : Outcome :=
  .next (((State.reset.withPending s.pending).withFree s.free).withSen (restartSensors s.clock s.sen))

/-- The link goes to HUNT, and the consecutive CRC failure count returns to 0; the search goes on with the bytes that
are given (R7). -/
def toHunt (bytes : List Byte) (l : Lrx) : Lrx := { l with link := .hunt, crcRun := 0, buffer := searched bytes }

/-- The bytes behind the block that stands first. -/
def behindBlock (l : Lrx) : List Byte := l.buffer.drop (blockSize l.buffer)

/-- MARKER_FOUND: in HUNT, a length within 0..4800 takes the link to SYNCED, and the bytes read become the start of the
first block received; after a longer one the search resumes at the marker's second byte, uncounted (R5). -/
def execMarkerFound (seen : Trace) (kind : Byte) (length : Nat) (s : State) : Outcome :=
  let s := sense seen s
  if laneEvent s.lrx = some (.markerFound kind length) then
    if length ≤ Config.maxLength then .next (observe (s.withLrx { s.lrx with link := .synced }))
    else .next (s.withLrx { s.lrx with buffer := searched s.lrx.buffer.tail })
  else .next s

/-- BLOCK_CRC_FAILURE: the block is discarded, and the counter and the consecutive count rise (R6). -/
def execBlockCrcFailure (seen : Trace) (s : State) : Outcome :=
  let s := sense seen s
  if laneEvent s.lrx = some .badBlock then
    .next (s.withLrx { s.lrx with crcFailures := bump32 s.lrx.crcFailures, crcRun := s.lrx.crcRun + 1,
                                  buffer := behindBlock s.lrx })
  else .next s

/-- CRC_FAILURE_LIMIT: the consecutive count has reached 3; the link goes to HUNT, and the search begins behind the
failed block (R6). -/
def execCrcFailureLimit (s : State) : Outcome :=
  if s.lrx.link = .synced ∧ 3 ≤ s.lrx.crcRun then .next (observe (s.withLrx (toHunt s.lrx.buffer s.lrx)))
  else .next s

/-- SYNC_SLIP: the four bytes after a block are not the marker; the search begins at the first of them (R7). -/
def execSyncSlip (seen : Trace) (s : State) : Outcome :=
  let s := sense seen s
  if laneEvent s.lrx = some .slip then
    .next (observe (s.withLrx { toHunt s.lrx.buffer s.lrx with syncSlips := bump32 s.lrx.syncSlips }))
  else .next s

/-- LENGTH_ERROR: a marker after a block carries a length above 4800; the search resumes at the marker's second byte
(R7). -/
def execLengthError (seen : Trace) (s : State) : Outcome :=
  let s := sense seen s
  if laneEvent s.lrx = some .tooLong then
    .next (observe (s.withLrx { toHunt s.lrx.buffer.tail s.lrx with lengthErrors := bump32 s.lrx.lengthErrors }))
  else .next s

/-- The LRX as the link goes to BREAK: its bytes are discarded, and a block in reception in SYNCED is counted as cut
(R8). -/
def brokenLrx (l : Lrx) : Lrx :=
  { l with link := .broken, crcRun := 0, buffer := [], stirred := false, breaks := bump32 l.breaks,
           blocksCut := if receiving l then bump32 l.blocksCut else l.blocksCut }

/-- The break timer has reached 1 ms: the link goes to BREAK, and the LINK trigger is signalled (R8, R12). -/
def breakLink (s : State) : State := trigger .link (s.withLrx (brokenLrx s.lrx))

/-- LINK_BREAK: no transition for 1 ms (R8). -/
def execLinkBreak (seen : Trace) (s : State) : Outcome :=
  let s := sense seen s
  .next (atEnd (breakMoment s.lrx) (fun s => conclude (breakLink s)) s)

/-- BREAK_END: the first transition after entry into BREAK takes the link to HUNT, and the search begins with the first
data byte that follows (R8). -/
def execBreakEnd (seen : Trace) (s : State) : Outcome :=
  let s := sense seen s
  if laneEvent s.lrx = some .breakEnd then
    .next (observe (s.withLrx { s.lrx with link := .hunt, stirred := false, buffer := searched s.lrx.buffer }))
  else .next s

/-! ## Good blocks (R6, R9) -/

/-- The LRX as it hands a good block on: the consecutive count is 0, and the next marker is expected behind the block
(R6, R7). -/
def handedOn (l : Lrx) : Lrx := { l with crcRun := 0, buffer := behindBlock l }

/-- The kind of the good block that stands first on the lane. -/
def goodKind (l : Lrx) : Option Byte :=
  match laneEvent l with
  | some (.goodBlock kind _) => some kind
  | _ => none

/-- UNKNOWN_KIND: a good block of none of the five inbound kinds is discarded and counted (R9). -/
def execUnknownKind (seen : Trace) (kind : Byte) (s : State) : Outcome :=
  let s := sense seen s
  if goodKind s.lrx = some kind ∧ inboundKinds.contains kind = false then
    .next (s.withLrx { handedOn s.lrx with unknownKinds := bump32 s.lrx.unknownKinds })
  else .next s

/-- A good stream block is dispatched (R9, R10). -/
def dispatchStream (s : State) : State :=
  s.withLrx { handedOn s.lrx with streamDispatched := bump32 s.lrx.streamDispatched }

/-- A good control block is dispatched: it joins the command FIFO, or finds it full and is discarded as a control
overrun (R9, R11, R20). -/
def dispatchControl (b : ControlBlock) (s : State) : State :=
  let s := s.withLrx { handedOn s.lrx with controlDispatched := bump32 s.lrx.controlDispatched }
  if s.cpr.fifo.length < Config.fifoDepth then s.withCpr { s.cpr with fifo := s.cpr.fifo ++ [b] }
  else occur .controlOverrun (s.withCpr { s.cpr with controlOverruns := bump16 s.cpr.controlOverruns })

/-- The kind byte of a control block (12_formats.md, 12.2). -/
def controlKindByte : ControlKind → Byte
  | .command => 0x20
  | .table => 0x21

/-- CONTROL_BLOCK: a good COMMAND or TABLE block is offered to the command FIFO (R9, R11, R20). -/
def execControlBlock (seen : Trace) (kind : ControlKind) (payload : List Byte) (s : State) : Outcome :=
  let s := sense seen s
  if laneEvent s.lrx = some (.goodBlock (controlKindByte kind) payload) then .next (dispatchControl ⟨kind, payload⟩ s)
  else .next s

end Sys2Proof.Machine
end

