-- ==== Sys2Proof/Machine/Stream.lean ====
section
/-! DEFINITION. The stream blocks: FRAME (Chapter 5), LINE and FEND (Chapter 6). -/

namespace Sys2Proof.Machine

open Sys2Proof

/-! ## FRAME (R79, R80) -/

/-- The data lines of a region list: the sum of its IMAGE regions' counts (R78). -/
def dataLinesOf (regions : List Region) : Nat :=
  (regions.map fun r => if r.kind = .image then r.lines else 0).sum

/-- Some colour's ladder epoch in a slot differs from the LMN's current epoch (R75, R80). -/
def ladderStale (s : State) (n : Fin 2) : Bool :=
  anyColour fun c => decide (((profile s n).plt.get c).epoch ≠ (s.lmn.channels.get c).epoch)

/-- The record of an accepted FRAME (R80). -/
def newRecord (f : FrameFields) (stale : Bool) : FrameRecord :=
  let k := dataLinesOf f.regions
  { fsn := f.fsn, tag := f.tag, slot := f.slot, width := f.width, height := f.height, advance := f.advance,
    startNotice := f.startNotice, regions := f.regions, dataLines := k,
    data := if k = 0 then .closed else .pending, kCur := 0, complete := 0, partialLines := 0, missing := 0,
    dataAborted := false, exposure := .waiting, step := none, setup := none, linesWritten := 0,
    excess := false, staleLadder := stale, report := none, behind := 0 }

/-- The reason that refuses a FRAME whose fields are in range, by the checks 2 to 5 of R79. -/
def frameRefusal (f : FrameFields) (s : State) : Option Reason :=
  if (f.regions.map Region.lines).sum ≠ f.height then some .listSum
  else if Config.frameRecords ≤ s.fq.records.length + s.fq.backlog.length then some .queueFull
  else if (record f.fsn s).isSome then some .duplicateFsn
  else if (profile s f.slot).state ≠ .valid then some .slotNotValid
  else none

/-- A FRAME is accepted: its record joins the young end, its slot is pinned, and the aborted-FSN register is
cleared where it holds the FSN (R80, R113). -/
def acceptFrame (f : FrameFields) (s : State) : State :=
  let r := newRecord f (ladderStale s f.slot)
  let s := pin f.slot (s.withFq { s.fq with records := s.fq.records ++ [r] })
  if s.lst.abortedFsn = some f.fsn then s.withLst { s.lst with abortedFsn := none } else s

/-- The FQ takes a FRAME payload (R79, R80, R191). -/
def takeFrame (payload : List Byte) (s : State) : State :=
  match payload with
  | [] => countRefused s
  | fsn :: _ =>
    match frameFieldsOf payload with
    | none => refuseStream 0x10 fsn.toNat .badArgument s
    | some f =>
      match frameRefusal f s with
      | some reason => refuseStream 0x10 f.fsn reason s
      | none => acceptFrame f s

/-- FRAME: a good FRAME block is dispatched to the Frame Queue (R9, R10, R79). -/
def execFrame (seen : Trace) (payload : List Byte) (s : State) : Outcome :=
  let s := sense seen s
  if laneEvent s.lrx = some (.goodBlock 0x10 payload) then .next (takeFrame payload (dispatchStream s)) else .next s

/-! ## LINE (R103 to R108) -/

/-- The fields of a LINE payload of 6 bytes or more (12.3). -/
structure LineFields where
  fsn : Nat
  k : Nat
  segment : Nat
  count : Nat
  wellSized : Bool
  codes : List Pixel
deriving DecidableEq, Repr

/-- The fields of a LINE payload (12.3, R104). -/
def lineFieldsOf (p : List Byte) : LineFields :=
  let n := field p 4 2
  { fsn := field p 0 1, k := field p 1 2, segment := field p 3 1, count := n,
    wellSized := decide (p.length = lineLength n), codes := (pixelsOf (p.drop 6)).take n }

/-- A LINE or FEND block is discarded and counted under a reason (R114). -/
def discard (f : Discards → Discards) (s : State) : State :=
  s.withLst { s.lst with discards := f s.lst.discards }

def discardOrphan (s : State) : State := discard (fun d => { d with orphan := bump32 d.orphan }) s
def discardAborted (s : State) : State := discard (fun d => { d with abortedData := bump32 d.abortedData }) s
def discardMalformed (s : State) : State := discard (fun d => { d with malformed := bump32 d.malformed }) s
def discardLate (s : State) : State := discard (fun d => { d with late := bump32 d.late }) s

/-- An excess block: the record's EXCESS flag is set (R104). -/
def discardExcess (fsn : Nat) (s : State) : State :=
  discard (fun d => { d with excess := bump32 d.excess }) (changeRecord fsn (fun r => { r with excess := true }) s)

/-- An overrun: LINE OVERRUN occurs (R108, R114). -/
def discardOverrun (s : State) : State :=
  occur .lineOverrun (discard (fun d => { d with overrun := bump32 d.overrun }) s)

/-- The older records whose data sides are not CLOSED: those before the record of an FSN (R81). -/
def olderThan (fsn : Nat) (records : List FrameRecord) : List FrameRecord :=
  records.takeWhile fun r => r.fsn != fsn

/-- A PENDING record opens: older records are closed first, in queue order, the aborted-FSN register is
cleared and k_cur is 0 (R81, R103). -/
def openData (fsn : Nat) (s : State) : State :=
  let s := (olderThan fsn s.fq.records).foldl (fun s r => closeData r.fsn s) s
  let s := changeRecord fsn (fun r => { r with data := .opened, kCur := 0 }) s
  s.withLst { s.lst with abortedFsn := none }

/-- The assembly index moves up to line `k`: the line at k_cur is partial where it has a slot, and every other
line passed is missing (R106). -/
def advanceIndex (r : FrameRecord) (k : Nat) (s : State) : State :=
  let hasSlot := s.lst.slots.any (assembling r.fsn)
  let s := changeRecord r.fsn (fun q =>
    if hasSlot then
      { q with kCur := k, partialLines := q.partialLines + 1, missing := q.missing + (k - r.kCur - 1) }
    else { q with kCur := k, missing := q.missing + (k - r.kCur) }) s
  s.withLst { s.lst with
    slots := s.lst.slots.map fun sl => if assembling r.fsn sl then { sl with state := .incomplete } else sl }

/-- A slot with a segment's codes written (R107). -/
def writeSegment (seg : Nat) (codes : List Pixel) (sl : LineSlot) : LineSlot :=
  { sl with segments := sl.segments.set seg (some codes) }

/-- Every expected segment is present (R107). -/
def allPresent (sl : LineSlot) : Bool := sl.segments.all Option.isSome

/-- A slot just written becomes READY when every segment is present (R107). -/
def readyWhenFull (sl : LineSlot) : LineSlot := if allPresent sl then { sl with state := .ready } else sl

/-- A FREE slot allocated for a line (R107). -/
def newLine (fsn k expected : Nat) : LineSlot :=
  { state := .assembling, fsn := some fsn, k := some k, segments := List.replicate expected none,
    lanesDone := .all false }

/-- The record once its line k_cur is READY: the line is complete and the index moves on; the last line
closes the data side (R82, R107). -/
def lineReady (q : FrameRecord) : FrameRecord :=
  { q with complete := q.complete + 1, kCur := q.kCur + 1,
           data := if q.kCur + 1 = q.dataLines then .closed else q.data }

/-- A segment is written into slot `i`, which held `sl`. -/
def storeInto (i : Nat) (sl : LineSlot) (fsn seg : Nat) (codes : List Pixel) (s : State) : State :=
  let sl := readyWhenFull (writeSegment seg codes sl)
  let s := setSlots (s.lst.slots.set i sl) s
  if sl.state = .ready then changeRecord fsn lineReady s else s

/-- A segment of line k_cur is stored: in the line's ASSEMBLING slot, or in a FREE slot allocated for it, or
it is an overrun (R107, R108). -/
def storeSegment (r : FrameRecord) (f : LineFields) (s : State) : State :=
  match slotIndex (assembling r.fsn) s with
  | some i => storeInto i ((s.lst.slots[i]?).getD .empty) r.fsn f.segment f.codes s
  | none =>
    match slotIndex (fun sl => sl.state == .free) s with
    | some i => storeInto i (newLine r.fsn f.k (segmentsExpected r.width)) r.fsn f.segment f.codes s
    | none => discardOverrun s

/-- A LINE judged against its record's geometry, and placed (R104 to R107). -/
def judgeLine (r : FrameRecord) (f : LineFields) (s : State) : State :=
  if r.dataLines ≤ f.k then discardExcess r.fsn s
  else if segmentsExpected r.width ≤ f.segment ∨ f.count ≠ segmentWidth r.width f.segment ∨
      f.wellSized = false then discardMalformed s
  else if r.data = .closed ∨ f.k < r.kCur then discardLate s
  else if r.kCur < f.k then storeSegment r f (advanceIndex r f.k s)
  else storeSegment r f s

/-- The LST takes a LINE payload (R103, R191). -/
def takeLine (payload : List Byte) (s : State) : State :=
  if payload.length < 6 then discardMalformed s
  else
    let f := lineFieldsOf payload
    if s.lst.abortedFsn = some f.fsn then discardAborted s
    else
      match record f.fsn s with
      | none => discardOrphan s
      | some r =>
        if r.data = .pending then
          judgeLine { r with data := .opened, kCur := 0 } f (openData f.fsn s)
        else judgeLine r f s

/-- LINE: a good LINE block is dispatched to the Line Store (R9, R10, R103). -/
def execLine (seen : Trace) (payload : List Byte) (s : State) : Outcome :=
  let s := sense seen s
  if laneEvent s.lrx = some (.goodBlock 0x11 payload) then .next (takeLine payload (dispatchStream s)) else .next s

/-! ## FEND (R109) -/

/-- The LST takes an FEND payload (R109, R191). -/
def takeFend (payload : List Byte) (s : State) : State :=
  match payload with
  | [b] =>
    let fsn := b.toNat
    if s.lst.abortedFsn = some fsn then discardAborted s
    else
      match record fsn s with
      | some r => if r.data = .opened then closeData fsn s else refuseStream 0x12 fsn .notOpen s
      | none => refuseStream 0x12 fsn .notOpen s
  | _ => discardMalformed s

/-- FEND: a good FEND block is dispatched to the Line Store (R9, R10, R109). -/
def execFend (seen : Trace) (payload : List Byte) (s : State) : Outcome :=
  let s := sense seen s
  if laneEvent s.lrx = some (.goodBlock 0x12 payload) then .next (takeFend payload (dispatchStream s)) else .next s

end Sys2Proof.Machine
end

