-- ==== Sys2Proof/Machine/Control.lean ====
section
/-! DEFINITION. The Command Processor's own commands (Chapter 2): SHORT COMMAND, UNKNOWN COMMAND, IDENTIFY,
READ STATUS, CLEAR STATUS and RESET UNIT. -/

namespace Sys2Proof.Machine

open Sys2Proof

/-- SHORT_COMMAND: the COMMAND at the head of the FIFO has no room for its tag and code; it is discarded,
its entry is released and CONTROL ERROR occurs (R22). -/
def execShortCommand (s : State) : Outcome :=
  match s.cpr.fifo with
  | ⟨.command, payload⟩ :: _ =>
    if payload.length < 3 ∧ mayExecute s = true then .next (controlError (endSilently (beginExecution s)))
    else .next s
  | _ => .next s

/-- UNKNOWN_COMMAND: the code of the COMMAND at the head of the FIFO names no command; the answer is REFUSED
BAD_ARGUMENT with the tag and the code as received (R22). -/
def execUnknownCommand (s : State) : Outcome :=
  match headCommand s with
  | some f =>
    if commandCodes.contains f.code = false ∧ mayExecute s = true then
      .next (endWithReply f.tag f.code (refused .badArgument) (beginExecution s))
    else .next s
  | none => .next s

/-! ## IDENTIFY and READ STATUS -/

def resetCauseCode : ResetCause → Nat
  | .power => 0 | .command => 1

/-- The data of IDENTIFY: part code, revision letter, reset cause, capacities (R31, 12.5). -/
def identifyData (s : State) : List Byte :=
  be2 0x4130 ++ be1 0x42 ++ be1 (resetCauseCode s.cpr.resetCause) ++
  be2 2 ++ be2 4 ++ be2 40 ++ be2 10 ++ be2 4096 ++ be2 3200

/-- IDENTIFY (R31). -/
def execIdentify (s : State) : Outcome :=
  .next (runCommand 0x01 0 (fun _ s => (accepted (identifyData s), s)) s)

/-- k_cur as READ STATUS gives it: 0 while the data side is PENDING, K once it is CLOSED (R30). -/
def shownIndex (r : FrameRecord) : Nat :=
  match r.data with
  | .pending => 0
  | .opened => r.kCur
  | .closed => r.dataLines

/-- A record as READ STATUS gives it (12.5). -/
def recordBytes (r : FrameRecord) : List Byte :=
  be1 r.fsn ++ be1 (exposureCode r.exposure) ++ be1 (dataCode r.data) ++ be2 (shownIndex r)

/-- The entries reserved for REPLYs still to be written (R13). -/
def reservedEntries (s : State) : Nat := s.rtx.entries.countP fun e => e == .reserved

/-- The data of READ STATUS (R30, 12.5). -/
def statusData (s : State) : List Byte :=
  let l := s.lrx
  let d := s.lst.discards
  conditionBytes s.cpr.current ++ be2 s.cpr.latch.toNat ++ conditionBytes s.cpr.reported ++
  be1 (linkCode l.link) ++ be4 l.streamDispatched ++ be4 l.controlDispatched ++ be4 l.crcFailures ++
  be4 l.syncSlips ++ be4 l.lengthErrors ++ be4 l.unknownKinds ++ be4 l.breaks ++ be4 l.blocksCut ++
  be2 s.rtx.droppedRefusals ++ be2 (occupancy s) ++ be2 (reservedEntries s) ++ be2 s.cpr.fifo.length ++
  be2 s.cpr.controlOverruns ++ be2 s.cpr.controlErrors ++ be2 s.fq.refused ++
  be4 d.orphan ++ be4 d.abortedData ++ be4 d.excess ++ be4 d.malformed ++ be4 d.late ++ be4 d.overrun ++
  be2 s.fq.records.length ++ s.fq.records.flatMap recordBytes ++ be2 s.fq.backlog.length ++
  be2 (freeSlots s.lst) ++ beBool s.lst.hold

/-- READ_STATUS (R30). -/
def execReadStatus (s : State) : Outcome :=
  .next (runCommand 0x02 0 (fun _ s => (accepted (statusData s), s)) s)

/-! ## CLEAR STATUS -/

/-- The event counts named in a set, reduced by what has been shown (R29). -/
def acknowledge (set : CondSet) (current reported : Conditions) : Conditions :=
  { current with
    lineOverrun := if condIn set .lineOverrun then current.lineOverrun - reported.lineOverrun
                   else current.lineOverrun
    controlOverrun := if condIn set .controlOverrun then current.controlOverrun - reported.controlOverrun
                      else current.controlOverrun
    controlError := if condIn set .controlError then current.controlError - reported.controlError
                    else current.controlError
    frameStarted := if condIn set .frameStarted then current.frameStarted - reported.frameStarted
                    else current.frameStarted }

/-- The reported event counts named in a set, taken as 0 (R29). -/
def forgetShown (set : CondSet) (reported : Conditions) : Conditions :=
  { reported with
    lineOverrun := if condIn set .lineOverrun then 0 else reported.lineOverrun
    controlOverrun := if condIn set .controlOverrun then 0 else reported.controlOverrun
    controlError := if condIn set .controlError then 0 else reported.controlError
    frameStarted := if condIn set .frameStarted then 0 else reported.frameStarted }

/-- CLEAR STATUS of a condition set (R29). A named condition whose flag was clear but whose current value differs from
the reported one is treated as every other: it is named in the NOTICE and its flag is set, though R29 says of it too that
its flag stays clear (DESIGN CHOICE, log entry 37). -/
def clearConditions (set : CondSet) (s : State) : State :=
  let current := acknowledge set s.cpr.current s.cpr.reported
  let reported := forgetShown set s.cpr.reported
  let differ := condSet fun c => condIn set c && condDiffers current reported c
  let s := s.withCpr { s.cpr with latch := s.cpr.latch &&& ~~~set, current := current, reported := reported }
  if differ = 0 then s else produceNotice differ s

/-- CLEAR_STATUS (R29). A set with a bit above 12 is refused (R191). -/
def execClearStatus (s : State) : Outcome :=
  .next (runCommand 0x03 2 (fun args s =>
    let n := field args 0 2
    if n < 8192 then (accepted [], clearConditions (BitVec.ofNat 13 n) s) else (refused .badArgument, s)) s)

/-! ## RESET UNIT (R32) -/

/-- The PST at RESET UNIT: pin counts 0; tables, kinds and compiles kept (R54). -/
def resetPst (p : Pst) : Pst :=
  { p with slot0 := { p.slot0 with pins := 0 }, slot1 := { p.slot1 with pins := 0 } }

/-- A lane at RESET UNIT (R55, R76, R115). -/
def resetLane (l : Lane) : Lane :=
  { l with offset := 0, densityClips := 0, powerClips := 0, floorClamps := 0, source := .dark, holdBuffer := [] }

/-- The STU at RESET UNIT (R137, R138). -/
def resetStu (u : Stu) : Stu :=
  { u with lineWait := none, scanCounter := 0, slips := .zero, writing := none }

/-- A colour of the PFM at RESET UNIT (R140). -/
def resetPulse (pl : PulseLane) : PulseLane :=
  { pl with rung := none, amplitude := 0, pulseOpen := false, pulse := none, truncations := 0 }

/-- The PFM at RESET UNIT (R140). -/
def resetPfm (p : Pfm) : Pfm := { p with lanes := p.lanes.map resetPulse, line := none, request := none }

/-- The LMN at RESET UNIT, its measurement already abandoned (R166). -/
def resetLmn (l : Lmn) : Lmn := { l with channels := l.channels.map emptyAccumulator, retraceCount := 0 }

/-- The transport at RESET UNIT: an advance in progress is lost (R181). -/
def resetFtc (f : Ftc) : Ftc :=
  if f.state = .advancing ∨ f.state = .settling then
    { f with state := .unregistered, phase := none, origin := none, counter := 0, perfTimer := none,
             settleTimer := none, motor := false, pinsIn := false }
  else f

/-- Every block other than the CPR and the LRX applies its own reset (R32 step 2): R54, R55, R98, R117, R137,
R140, R166, R181, R189. The RTX keeps only a block whose transmission has begun (R18). -/
def resetOwners (s : State) : State :=
  let s := abandonMeasurement (abandonSession s)
  let s := s.withPst (resetPst s.pst)
  let s := s.withFq { s.fq with records := [], backlog := [], held := false }
  let s := s.withLst (followHold { s.lst with slots := List.replicate Config.lineSlots .empty, abortedFsn := none })
  let s := s.withLanes (s.lanes.map resetLane)
  let s := s.withStu (resetStu s.stu)
  let s := s.withPfm (resetPfm s.pfm)
  let s := s.withLmn (resetLmn s.lmn)
  let s := s.withBlc { s.blc with latch := true, causes := 0x80 }
  let s := requestHoming (s.withFtc (resetFtc s.ftc))
  s.withRtx { s.rtx with entries := if s.rtx.sending then s.rtx.entries.take 1 else [] }

/-- The owners' values with every event count 0 and no FRAME STARTED FSN (R32 step 4). -/
def resetValues (s : State) : Conditions :=
  { ownerValues s with
    lineOverrun := 0, controlOverrun := 0, controlError := 0, frameStarted := 0, startedFsn := none }

/-- RESET UNIT executes, answering a tag (R32). -/
def resetUnit (tag : Nat) (s : State) : State :=
  let s := resetOwners (beginExecution s)
  let s := s.withCpr { s.cpr with
    fifo := [], executing := none, loadPointer := none, resetCause := .command, latch := 0,
    current := resetValues s, waitingNotice := none }
  let s := enqueue (.reply { stream := false, tag := tag, code := 0x04, result := .ok, reason := none,
                             data := [] }) s
  produceNotice (condSet (condDiffers s.cpr.current s.cpr.reported)) s

/-- RESET_UNIT (R32). Argument bytes, of which its layout has none, make it a refused block (R191; log
entry 31). -/
def execResetUnit (s : State) : Outcome :=
  match headCommand s with
  | some f =>
    if f.code = 0x04 ∧ mayExecute s = true ∧ f.args.length = 0 then .next (resetUnit f.tag s)
    else .next (runCommand 0x04 0 (fun _ s => (accepted [], s)) s)
  | none => .next s

end Sys2Proof.Machine
end

