-- ==== Sys2Proof/Machine/Profile.lean ====
section
/-! DEFINITION. Profile slots (Chapter 3): the load session, TABLE OPEN, TABLE blocks, TABLE CLOSE, the end of a
compile, and READ SLOT. -/

namespace Sys2Proof.Machine

open Sys2Proof

/-! ## TABLE OPEN (R40 to R42) -/

/-- A slot as a session of a kind opens on it: the kind is absent, a CDT or SCT makes the compile not current,
the state is LOADING, and the kind's content starts as R41 and R42 state. -/
def openedSlot (kind : TableKind) (p : ProfileSlot) : ProfileSlot :=
  let q := { p with state := .loading, kinds := withKind p.kinds kind false }
  match kind with
  | .cdt => { q with compiledCurrent := false, cdt := if p.kinds.cdt then p.cdt else [] }
  | .sct => { q with compiledCurrent := false, sct := .all [] }
  | .plt => { q with plt := p.plt.map fun l => { l with rungs := [] } }

/-- The load pointer a session starts with (R41, R42). -/
def startPointer (kind : TableKind) (index : Nat) : Nat := if kind = .cdt then index else 0

/-- A session opens, after any session already open is abandoned (R40). -/
def openSession (n : Fin 2) (kind : TableKind) (index : Nat) (s : State) : State :=
  let s := abandonSession s
  let s := setProfile n (openedSlot kind (profile s n)) s
  (s.withPst { s.pst with session := some ⟨n, kind, 0, 0, 0, 0⟩ }).withCpr
    { s.cpr with loadPointer := some (startPointer kind index) }

/-- The data that names an abandoned session (R40). -/
def abandonedBytes : Option Session → List Byte
  | none => []
  | some ses => be1 ses.slot.val ++ be1 (tableKindCode ses.kind) ++ be2 (min 65535 ses.written)

/-- TABLE OPEN's checks and effect (R40). -/
def ownTableOpen (args : List Byte) (s : State) : Answer × State :=
  match slotOf (field args 0 1), tableKindOf (field args 1 1) with
  | some n, some kind =>
    let p := profile s n
    if p.state = .compiling ∨ p.state = .measuring then (refused .busy, s)
    else if 0 < p.pins then (refused .slotPinned, s)
    else
      let given := field args 2 2
      let index := limit 0 12287 given
      (carriedOut (index = given)
        (be1 n.val ++ be1 (tableKindCode kind) ++ be2 (startPointer kind index) ++ abandonedBytes s.pst.session),
       openSession n kind index s)
  | _, _ => (refused .badArgument, s)

/-- TABLE_OPEN (R40). -/
def execTableOpen (s : State) : Outcome := .next (runCommand 0x10 4 ownTableOpen s)

/-! ## TABLE blocks (R41 to R43) -/

/-- What a TABLE block writes: the load pointer, the session's counts and the slot. -/
structure Loading where
  pointer : Nat
  session : Session
  slot : ProfileSlot
deriving DecidableEq, Repr

/-- An entry is written; `clamped` says that a value was brought to its limit. -/
def countWritten (clamped : Bool) (l : Loading) : Loading :=
  { l with pointer := l.pointer + 1,
           session := { l.session with written := l.session.written + 1,
                                       clamped := if clamped then l.session.clamped + 1 else l.session.clamped } }

/-- An entry past capacity is discarded (R41, R42). -/
def countPast (l : Loading) : Loading :=
  { l with session := { l.session with pastCapacity := l.session.pastCapacity + 1 } }

/-- A density enters a CDT session (R41). -/
def addDensity (l : Loading) (d : Nat) : Loading :=
  if l.pointer < Config.cdtEntries then
    countWritten (decide (5000 < d))
      { l with slot := { l.slot with cdt := tableWrite 0 l.slot.cdt l.pointer (min d 5000) } }
  else countPast l

/-- An entry enters an SCT or PLT session of a capacity; `lim` is the limit of its first value, and `put`
appends it to its colour's list (R42). -/
def addPair (capacity lim : Nat) (put : Colour → Nat → Nat → ProfileSlot → ProfileSlot) (l : Loading)
    (e : Nat × Nat × Nat) : Loading :=
  match colourOf e.1 with
  | none => { l with session := { l.session with badColour := l.session.badColour + 1 } }
  | some c =>
    if l.pointer < capacity then
      countWritten (decide (lim < e.2.1 ∨ 4095 < e.2.2))
        { l with slot := put c (min e.2.1 lim) (min e.2.2 4095) l.slot }
    else countPast l

/-- A point joins the end of a colour's stock curve (R42). -/
def putPoint (c : Colour) (density exposure : Nat) (p : ProfileSlot) : ProfileSlot :=
  { p with sct := p.sct.set c (p.sct.get c ++ [⟨density, exposure⟩]) }

/-- A rung joins the end of a colour's ladder (R42). -/
def putRung (c : Colour) (dac power : Nat) (p : ProfileSlot) : ProfileSlot :=
  { p with plt := p.plt.set c { p.plt.get c with rungs := (p.plt.get c).rungs ++ [⟨dac, power⟩] } }

/-- The entries of a TABLE block's bytes are taken in order; with it, the bytes left over (R43). -/
def takeEntries (kind : TableKind) (bytes : List Byte) (l : Loading) : Loading × List Byte :=
  match kind with
  | .cdt => ((cdtEntriesOf bytes).1.foldl addDensity l, (cdtEntriesOf bytes).2)
  | .sct => ((pairEntriesOf bytes).1.foldl (addPair 192 5000 putPoint) l, (pairEntriesOf bytes).2)
  | .plt => ((pairEntriesOf bytes).1.foldl (addPair 48 4095 putRung) l, (pairEntriesOf bytes).2)

/-- The PST takes a TABLE payload (R43): without a session, or of another kind than the session's, it is
discarded as a control error; otherwise its entries go to the session's slot, and leftover bytes are a
control error. -/
def takeTable (payload : List Byte) (s : State) : State :=
  match s.pst.session, payload with
  | some ses, kind :: bytes =>
    if tableKindOf kind.toNat = some ses.kind then
      let r := takeEntries ses.kind bytes ⟨s.cpr.loadPointer.getD 0, ses, profile s ses.slot⟩
      let s := setProfile ses.slot r.1.slot s
      let s := (s.withPst { s.pst with session := some r.1.session }).withCpr
        { s.cpr with loadPointer := some r.1.pointer }
      if r.2 = [] then s else controlError s
    else controlError s
  | _, _ => controlError s

/-- TABLE_BLOCK: the TABLE block at the head of the FIFO is executed; it is not answered (R22, R43). -/
def execTableBlock (s : State) : Outcome :=
  match s.cpr.fifo with
  | ⟨.table, payload⟩ :: _ =>
    if mayExecute s then .next (endSilently (takeTable payload (beginExecution s))) else .next s
  | _ => .next s

/-! ## TABLE CLOSE (R45 to R48) -/

/-- A stock curve's densities and log exposures strictly increase (R46). -/
def curveOrdered : List CurvePoint → Bool
  | p :: q :: rest => decide (p.density < q.density ∧ p.exposure < q.exposure) && curveOrdered (q :: rest)
  | _ => true

/-- The first failure of a colour's stock curve (R46). -/
def curveFailure (points : List CurvePoint) : Option ResultCode :=
  if points.length < 2 ∨ 64 < points.length then some .curveCount
  else if curveOrdered points then none
  else some .curveOrder

/-- The first failure among adjacent powers, strongest first: not strictly decreasing, or more than 300 mL
apart (R47, R164). The result names which. -/
def powersFailure (order spacing : α) : List Nat → Option α
  | p :: q :: rest =>
    if p ≤ q then some order
    else if 300 < p - q then some spacing
    else powersFailure order spacing (q :: rest)
  | _ => none

/-- The first failure of a colour's ladder (R47). -/
def ladderFailure (rungs : List Rung) : Option ResultCode :=
  if rungs.length < 2 ∨ 16 < rungs.length then some .ladderCount
  else powersFailure .ladderOrder .ladderSpacing (rungs.map Rung.power)

/-- The first colour that fails, red, green, blue, with its failure. -/
def firstFailure {α : Type} (f : Colour → Option α) : Option (α × Colour) :=
  colours.findSome? fun c => (f c).map fun r => (r, c)

/-- Validation of a kind in its slot (R45 to R47). -/
def validate (kind : TableKind) (p : ProfileSlot) : Option (ResultCode × Colour) :=
  match kind with
  | .cdt => none
  | .sct => firstFailure fun c => curveFailure (p.sct.get c)
  | .plt => firstFailure fun c => ladderFailure (p.plt.get c).rungs

/-- Ladders take their stamps and epochs from the LMN (R47). -/
def stampLadders (s : State) (p : ProfileSlot) : ProfileSlot :=
  { p with plt := .of fun c => { p.plt.get c with
      stamp := (s.lmn.channels.get c).drift, epoch := (s.lmn.channels.get c).epoch } }

/-- A slot whose session of a kind has passed validation (R46 to R48). -/
def passedSlot (kind : TableKind) (s : State) (p : ProfileSlot) : ProfileSlot :=
  let p := { p with kinds := withKind p.kinds kind true }
  settle (if kind = .plt then stampLadders s p else p)

/-- The session's four counts in the data of TABLE CLOSE (R45; log entry 12). -/
def sessionBytes (ses : Session) : List Byte :=
  be2 (min 65535 ses.written) ++ be2 (min 65535 ses.pastCapacity) ++ be2 (min 65535 ses.badColour) ++
  be2 (min 65535 ses.clamped)

/-- The moment at which a compile that begins now ends: within 2 ms, after a free value of counts (R49; log
entry 27). -/
def compileEnd (s : State) : Nat := s.clock + counts (Config.openCompileTime s.free).val

/-- A slot that has just gone COMPILING compiles from now on (R49). -/
def startCompile (n : Fin 2) (s : State) : State :=
  if (profile s n).state = .compiling then
    (setProfile n { profile s n with compileEnds := some (compileEnd s) } s).withFree (s.free + 1)
  else s

/-- TABLE CLOSE (R45, R48). -/
def ownTableClose (_ : List Byte) (s : State) : Answer × State :=
  match s.pst.session with
  | none => (refused .noSession, s)
  | some ses =>
    let p := profile s ses.slot
    let failure := validate ses.kind p
    let p' := if failure.isSome then settle p else passedSlot ses.kind s p
    let data := be1 ses.slot.val ++ be1 (tableKindCode ses.kind) ++ sessionBytes ses ++
      be1 (slotStateCode p'.state)
    let answer : Answer :=
      match failure with
      | some (r, c) => ⟨r, none, data ++ be1 (colourCode c)⟩
      | none => carriedOut (ses.clamped = 0) data
    let s := startCompile ses.slot (setProfile ses.slot p' s)
    (answer, (s.withPst { s.pst with session := none }).withCpr { s.cpr with loadPointer := none })

/-- TABLE_CLOSE (R45). -/
def execTableClose (s : State) : Outcome := .next (runCommand 0x11 0 ownTableClose s)

/-- A slot whose compile has ended: its tables are made, compiled current is yes and it is VALID (R49). -/
def compiledSlot (p : ProfileSlot) : ProfileSlot :=
  { p with compiled := compiledTables p, compiledCurrent := true, state := .valid, compileEnds := none }

/-- A slot's compile has ended (R49). -/
def endCompile (n : Fin 2) (s : State) : State := setProfile n (compiledSlot (profile s n)) s

/-- COMPILE_END (R49). -/
def execCompileEnd (seen : Trace) (n : Fin 2) (s : State) : Outcome :=
  let s := sense seen s
  .next (atEnd (compileMoment (profile s n)) (endCompile n) s)

/-! ## READ SLOT (R53) -/

/-- The data of READ SLOT (R53, R192). The kinds present are a set of three and take one byte, as the colour set does
(DESIGN CHOICE, log entry 12: R190 gives no width for them). -/
def slotData (p : ProfileSlot) : List Byte :=
  be1 (slotStateCode p.state) ++ be1 (kindsCode p.kinds) ++ be2 p.pins ++
  colours.flatMap (fun c => be2 (if p.kinds.sct then (p.sct.get c).length else 0)) ++
  colours.flatMap fun c =>
    if p.kinds.plt then
      be2 (p.plt.get c).rungs.length ++ beSigned (p.plt.get c).stamp ++ be2 (p.plt.get c).epoch
    else be2 0 ++ be2 0 ++ be2 0

/-- READ_SLOT (R53). -/
def execReadSlot (s : State) : Outcome :=
  .next (runCommand 0x12 1 (fun args s =>
    match slotOf (field args 0 1) with
    | some n => (accepted (slotData (profile s n)), s)
    | none => (refused .badArgument, s)) s)

end Sys2Proof.Machine
end

