-- ==== Sys2Proof/Machine/Queue.lean ====
section
/-! DEFINITION. The Frame Queue's commands and starts (Chapter 5): ABORT FRAME, FLUSH QUEUE, RELEASE QUEUE,
POSITIONING START and EXPOSURE START. -/

namespace Sys2Proof.Machine

open Sys2Proof

/-! ## Commands on the queue -/

/-- ABORT FRAME (R93). -/
def ownAbortFrame (args : List Byte) (s : State) : Answer × State :=
  match record (field args 0 1) s with
  | none => (refused .notFound, s)
  | some r =>
    if r.exposure = .finished then (refused .badState, s)
    else (accepted (be1 (exposureCode r.exposure) ++ be1 (dataCode r.data)),
          conclude (abortRecord r .abortCommand s))

/-- ABORT_FRAME (R93). -/
def execAbortFrame (s : State) : Outcome := .next (runCommand 0x20 1 ownAbortFrame s)

/-- A record leaves the queue in a flush: a FINISHED one with its COMPLETED report, any other by an abort
(R94). -/
def flushRecord (s : State) (r : FrameRecord) : State :=
  if r.exposure = .finished then offerReport (r.report.getD (reportOf r none s)) (removeRecord r s)
  else abortRecord r .flush s

/-- FLUSH QUEUE (R94): the aborts' change of the HELD flag is reported before the flag is cleared (log
entry 11). -/
def ownFlushQueue (_ : List Byte) (s : State) : Answer × State :=
  let aborted := s.fq.records.countP fun r => r.exposure != .finished
  let s' := observe (s.fq.records.foldl flushRecord s)
  (accepted (be2 s.fq.records.length ++ be2 aborted), conclude (s'.withFq { s'.fq with held := false }))

/-- FLUSH_QUEUE (R94). -/
def execFlushQueue (s : State) : Outcome := .next (runCommand 0x21 0 ownFlushQueue s)

/-- RELEASE_QUEUE (R95). -/
def execReleaseQueue (s : State) : Outcome :=
  .next (runCommand 0x22 0 (fun _ s =>
    (accepted (beBool s.fq.held), observe (s.withFq { s.fq with held := false }))) s)

/-! ## POSITIONING START (R84, R85) -/

/-- POSITIONING_START: the oldest WAITING record of a queue that is not HELD goes POSITIONING (R84, R85). -/
def execPositioningStart (s : State) : Outcome :=
  match positionable s with
  | some r => .next (conclude (positionOn r s))
  | none => .next s

/-! ## EXPOSURE START (R86) -/

/-- A lane at an exposure start: its trim is latched, its counts are 0, it takes the record's slot and its hold
buffer is all DARK (R74, R86, R115). -/
def startLane (slot : Fin 2) (l : Lane) : Lane :=
  { l with trim := l.pendingTrim, densityClips := 0, powerClips := 0, floorClamps := 0, slot := some slot,
           holdBuffer := [] }

/-- The STU at an exposure start (R130). -/
def startStu (now : Nat) (u : Stu) : Stu :=
  { u with facets := u.facetsPending, vertical := u.verticalPending, scanCounter := 0, slips := .zero,
           lineWait := some now, writing := none }

/-- A colour's pulse is that of a monitor request whose window is open. -/
def monitorPulseOpen (p : Pfm) (c : Colour) : Bool :=
  match p.request with
  | some q => q.opened && (q.shots.get c).isSome && (p.lanes.get c).pulseOpen
  | none => false

/-- The PFM at an exposure start: the pending geometry is latched, the truncation counts are 0, no rung is in
effect and the amplitudes hold code 0 (R86, R144, R149), but for a monitor pulse in progress (log entry 22). -/
def startPfm (p : Pfm) : Pfm :=
  { p with
    startDelay := p.startDelayPending
    rungGuard := p.rungGuardPending
    lanes := .of fun c =>
      let pl := p.lanes.get c
      { pl with horizontal := pl.horizontalPending, rung := none, truncations := 0,
                amplitude := if monitorPulseOpen p c then pl.amplitude else 0 } }

/-- The setup that a frame latches from the pending copies (R86). -/
def latchSetup (s : State) : LatchedSetup :=
  { trims := s.lanes.map Lane.pendingTrim, vertical := s.stu.verticalPending,
    horizontal := s.pfm.lanes.map PulseLane.horizontalPending, startDelay := s.pfm.startDelayPending,
    rungGuard := s.pfm.rungGuardPending }

/-- The record as it enters EXPOSING, with the epoch check of R75. -/
def startRecord (setup : LatchedSetup) (stale : Bool) (r : FrameRecord) : FrameRecord :=
  { r with exposure := .exposing, step := none, setup := some setup, staleLadder := r.staleLadder || stale,
           linesWritten := 0 }

/-- A homed record enters EXPOSING (R86, R97). -/
def startExposure (r : FrameRecord) (s : State) : State :=
  let setup := latchSetup s
  let stale := ladderStale s r.slot
  let s := changeRecord r.fsn (startRecord setup stale) s
  let s := s.withLanes (s.lanes.map (startLane r.slot))
  let s := s.withStu (startStu (timebase s) s.stu)
  let s := s.withPfm (startPfm s.pfm)
  if r.startNotice then frameStarted r.fsn s else s

/-- EXPOSURE_START (R86). -/
def execExposureStart (s : State) : Outcome :=
  match exposable s with
  | some r => .next (conclude (startExposure r s))
  | none => .next s

end Sys2Proof.Machine
end

