-- ==== Sys2Proof/Machine/Outbound.lean ====
section
/-! DEFINITION. The Reply Transmitter's steps (Chapter 1, 1.5): a transmission begins and ends, and the grants of
free entries to waiting reports and to a waiting notice. -/

namespace Sys2Proof.Machine

open Sys2Proof

/-- The block whose transmission may begin: the oldest entry's, where none is being sent and it holds one (R13). -/
def sendable (s : State) : Option OutBlock :=
  match s.rtx.sending, s.rtx.entries with
  | false, .block b :: _ => some b
  | _, _ => none

/-- The values that a block carries to the server as reported values (R27). -/
def reportedBy (b : OutBlock) (old : Conditions) : Conditions :=
  match b with
  | .notice n => n.values
  | _ => old

/-- TRANSMISSION_BEGINS: the oldest entry's block is framed on the outbound lane (R2, R3, R13), and a NOTICE
sets the reported values (R27). -/
def execTransmissionBegins (s : State) : Outcome :=
  match sendable s with
  | some b =>
    .next ((s.withRtx { s.rtx with sending := true, lane := outBytes b }).withCpr
      { s.cpr with reported := reportedBy b s.cpr.reported })
  | none => .next s

/-- The block being sent has gone out, and its entry becomes free (R13). -/
def entrySent (s : State) : State :=
  let s := s.withSen { s.sen with sent := false }
  if s.rtx.sending then s.withRtx { s.rtx with entries := s.rtx.entries.tail, sending := false, lane := [] } else s

/-- ENTRY_SENT: the last byte of the block's CRC has been sent (R13). -/
def execEntrySent (seen : Trace) (s : State) : Outcome :=
  let s := sense seen s
  .next (if s.sen.sent then entrySent s else s)

/-- The FINISHED record whose report is the oldest that waits (R88). -/
def finishedFirst (s : State) : Option FrameRecord :=
  match oldest s with
  | some r => if r.exposure = .finished ∧ (r.behind = 0 ∨ s.fq.backlog = []) then some r else none
  | none => none

/-- A report of the backlog has gone: a FINISHED record's report has one fewer before it. -/
def oneFewerBefore (r : FrameRecord) : FrameRecord := { r with behind := r.behind - 1 }

/-- The oldest waiting report takes a free entry (R16, R88): a FINISHED record's, which then leaves the queue, or
the backlog's first. -/
def grantReport (s : State) : State :=
  match finishedFirst s with
  | some r => enqueue (.report (r.report.getD (reportOf r none s))) (removeRecord r s)
  | none =>
    match s.fq.backlog with
    | rep :: rest =>
      enqueue (.report rep) (s.withFq { s.fq with backlog := rest, records := s.fq.records.map oneFewerBefore })
    | [] => s

/-- REPORT_GRANTED (R88): a free entry is granted to the report that has waited longest. -/
def execReportGranted (s : State) : Outcome :=
  if entryFree s && reportWaiting s then .next (conclude (grantReport s)) else .next s

/-- NOTICE_GRANTED (R16): a free entry is granted to the waiting notice where no report waits. With two or more reports
waiting, R16 gives each freed entry to a report and also the next one after the first to the notice; the notice waits
behind all of them (DESIGN CHOICE, log entry 36). -/
def execNoticeGranted (s : State) : Outcome :=
  match s.cpr.waitingNotice with
  | some n =>
    if entryFree s && !reportWaiting s then
      .next (enqueue (.notice n) (s.withCpr { s.cpr with waitingNotice := none }))
    else .next s
  | none => .next s

end Sys2Proof.Machine
end

