-- ==== Sys2Proof/Machine/Polygon.lean ====
section
/-! DEFINITION. The polygon and facet identity (Chapter 7, 7.2 to 7.5): POLYGON START and STOP, the STU's SET
commands, the judgment of facet periods, the acquire timer, lock, and facet sync. -/

namespace Sys2Proof.Machine

open Sys2Proof

/-! ## POLYGON START and POLYGON STOP (R122, R123) -/

/-- The items that both commands' data give: the state before, the glitch count, the last facet period (R122,
12.5). A period above the largest value of its four bytes is sent as that value (DESIGN CHOICE, log entry 12: no rule
states what is sent). -/
def polygonData (s : State) : List Byte :=
  be1 (polygonCode s.stu.polygon) ++ be4 s.stu.glitches ++ be4 (min 4294967295 s.stu.lastPeriod)

/-- The STU as a STOPPED polygon starts (R120, R122). -/
def startedStu (now : Nat) (u : Stu) : Stu :=
  { u with polygon := .acquiring, motor := true, runCount := 0, acquireTimer := some now, periodStart := none,
           periodOverrun := false }

/-- POLYGON START (R122). -/
def ownPolygonStart (_ : List Byte) (s : State) : Answer × State :=
  if s.stu.polygon = .stopped then
    (accepted (beBool false ++ polygonData s), conclude (s.withStu (startedStu (timebase s) s.stu)))
  else (accepted (beBool true ++ polygonData s), s)

/-- POLYGON_START (R122). -/
def execPolygonStart (s : State) : Outcome := .next (runCommand 0x28 0 ownPolygonStart s)

/-- The STU on entry into STOPPED (R123, R127). The run count, which R123 only says stops, holds 0 while STOPPED
(DESIGN CHOICE, log entry 17): every entry into ACQUIRING sets it to 0, and nothing reads it before. -/
def stoppedStu (u : Stu) : Stu :=
  { u with polygon := .stopped, motor := false, runCount := 0, acquireTimer := none, acquireFault := false,
           periodStart := none, periodOverrun := false, facetSync := .hunt, goodRevs := 0, revOpen := false }

/-- POLYGON STOP (R123). -/
def ownPolygonStop (_ : List Byte) (s : State) : Answer × State :=
  if isExposing s = true ∨ s.lmn.measurement.isSome = true then (refused .busy, s)
  else if s.stu.polygon = .stopped then (accepted (polygonData s), s)
  else (accepted (polygonData s), conclude (emptyStopped (s.withStu (stoppedStu s.stu))))

/-- POLYGON_STOP (R123). -/
def execPolygonStop (s : State) : Outcome := .next (runCommand 0x29 0 ownPolygonStop s)

/-! ## SET POLYGON, SET FACETS, SET LINE GEOMETRY, SET LINE WAIT -/

/-- SET POLYGON (R124). -/
def ownSetPolygon (args : List Byte) (s : State) : Answer × State :=
  if s.stu.polygon = .stopped then
    let period := limit 20000 200000 (field args 0 4)
    let wait := limit 1000 60000 (field args 4 2)
    (carriedOut (decide (period = field args 0 4 ∧ wait = field args 4 2)) (be4 period ++ be2 wait),
     s.withStu { s.stu with nominal := period, acquireLimit := wait })
  else (refused .badState, s)

/-- SET_POLYGON (R124). -/
def execSetPolygon (s : State) : Outcome := .next (runCommand 0x2A 6 ownSetPolygon s)

/-- The facet record that argument bytes give, limited (R24, R128). -/
def facetRecordOf (args : List Byte) : FacetRecord :=
  { startShift := limitInt (-128) 127 (sfield args 1),
    trims := ⟨limitInt (-40) 40 (sfield args 3), limitInt (-40) 40 (sfield args 5),
              limitInt (-40) 40 (sfield args 7)⟩ }

/-- The facet record that argument bytes give, before limiting. -/
def facetRecordGiven (args : List Byte) : FacetRecord :=
  { startShift := sfield args 1, trims := ⟨sfield args 3, sfield args 5, sfield args 7⟩ }

/-- SET FACETS (R128). -/
def ownSetFacets (args : List Byte) (s : State) : Answer × State :=
  let f := field args 0 1
  if f < Config.facets then
    let r := facetRecordOf args
    (carriedOut (r = facetRecordGiven args)
      (be1 f ++ beSigned r.startShift ++ r.trims.list.flatMap beSigned),
     s.withStu { s.stu with facetsPending := s.stu.facetsPending.set f r })
  else (refused .badArgument, s)

/-- SET_FACETS (R128). -/
def execSetFacets (s : State) : Outcome := .next (runCommand 0x2B 9 ownSetFacets s)

/-- SET LINE GEOMETRY (R129). -/
def ownSetLineGeometry (args : List Byte) (s : State) : Answer × State :=
  let given : PerColour Nat := ⟨field args 0 1, field args 1 1, field args 2 1⟩
  let v := given.map (limit 0 15)
  (carriedOut (v = given) (v.list.flatMap be1), s.withStu { s.stu with verticalPending := v })

/-- SET_LINE_GEOMETRY (R129). -/
def execSetLineGeometry (s : State) : Outcome := .next (runCommand 0x2C 3 ownSetLineGeometry s)

/-- The line wait timer has reached the limit (R136). -/
def lineWaitOver (s : State) : Bool :=
  match s.stu.lineWait with
  | some t => elapsedMs t s.stu.lineWaitLimit s
  | none => false

/-- The line wait timer expires: it stops, and the exposing record is aborted with LINE_WAIT (R136). -/
def expireLineWait (s : State) : State := abortExposing .lineWait (stopLineWait s)

/-- SET LINE WAIT (R136): a running timer that has already reached the new limit expires at once. -/
def ownSetLineWait (args : List Byte) (s : State) : Answer × State :=
  let wait := limit 100 60000 (field args 0 2)
  let s := s.withStu { s.stu with lineWaitLimit := wait }
  (carriedOut (wait = field args 0 2) (be2 wait),
   if lineWaitOver s then conclude (expireLineWait s) else s)

/-- SET_LINE_WAIT (R136). -/
def execSetLineWait (s : State) : Outcome := .next (runCommand 0x2D 2 ownSetLineWait s)

/-! ## Facet periods (R119 to R121) -/

/-- The period lies in the acquire band of N, ±0.10% (R120). -/
def inAcquireBand (p n : Nat) : Bool := decide (((p : Int) - n).natAbs * 1000 ≤ n)

/-- The period lies in the lock band of N, ±0.50% (R120). -/
def inLockBand (p n : Nat) : Bool := decide (((p : Int) - n).natAbs * 200 ≤ n)

/-- A filtered edge at a time is a glitch: N/2 counts or fewer after the last accepted edge (R119). -/
def isGlitch (t : Nat) (u : Stu) : Bool :=
  match u.lastEdge with
  | some e => decide (wholeCounts (t - e) ≤ u.nominal / 2)
  | none => false

/-- The run count after a judged period (R120). -/
def nextRun (inBand : Bool) (run : Nat) : Nat := if inBand then min Config.lockRun (run + 1) else 0

/-- A facet period that ended is judged by the polygon's state (R120, R121). -/
def judgePeriod (p : Nat) (s : State) : State :=
  match s.stu.polygon with
  | .stopped => s
  | .acquiring =>
    s.withStu { s.stu with runCount := nextRun (inAcquireBand p s.stu.nominal) s.stu.runCount }
  | .locked => if inLockBand p s.stu.nominal then s else loseLock s

/-- An accepted edge at time `t` ends the facet period being timed, which is measured, and judged
unless it was judged at its overrun; the edge starts the next period (R120, R121; log entry 16). -/
def timePeriod (t : Nat) (s : State) : State :=
  let u := s.stu
  if u.polygon = .stopped then s
  else
    let started := s.withStu { u with periodStart := some t, periodOverrun := false }
    match u.periodStart with
    | none => started
    | some t0 =>
      let p := wholeCounts (t - t0)
      let measured := started.withStu { started.stu with lastPeriod := p }
      if u.periodOverrun then measured else judgePeriod p measured

/-- A period that has run too long is judged outside: an ACQUIRING polygon's run count becomes 0, a LOCKED one
loses lock; the next accepted edge is not judged (R120, R121). -/
def overrunPeriod (s : State) : State :=
  match s.stu.polygon with
  | .stopped => s
  | .acquiring => s.withStu { s.stu with runCount := 0, periodOverrun := true }
  | .locked => loseLock (s.withStu { s.stu with periodOverrun := true })

/-- PERIOD_OVERRUN (R120, R121). -/
def execPeriodOverrun (s : State) : Outcome :=
  .next (atEnd (overrunMoment s.stu) (fun s => conclude (overrunPeriod s)) s)

/-- The acquire timer ends while the polygon is ACQUIRING (R120). -/
def faultAcquire (s : State) : State := s.withStu { s.stu with acquireFault := true, acquireTimer := none }

/-- ACQUIRE_TIMEOUT: the acquire timer ends and the acquire-fault flag is set; the polygon goes on seeking lock
(R120). -/
def execAcquireTimeout (s : State) : Outcome :=
  .next (atEnd (acquireMoment s.stu) (fun s => conclude (faultAcquire s)) s)

/-- POLYGON_LOCK: the run count has reached 64; the polygon goes LOCKED, the acquire timer stops and the
acquire-fault flag is cleared (R120). -/
def execPolygonLock (s : State) : Outcome :=
  if s.stu.polygon = .acquiring ∧ Config.lockRun ≤ s.stu.runCount then
    .next (conclude (s.withStu { s.stu with polygon := .locked, acquireTimer := none, acquireFault := false }))
  else .next s

/-! ## Facet identity (R125 to R127) -/

/-- The count of good revolutions after a revolution that had some edges (R126). -/
def nextGood (edges good : Nat) : Nat := if edges = Config.facets then min 2 (good + 1) else 0

/-- An index indication while facet sync is HUNT: it opens the first revolution, or ends one, which is judged unless
the polygon is STOPPED (R126, R127; log entry 17). -/
def huntIndex (u : Stu) : Stu :=
  { u with
    edgeRun := 0, revOpen := true
    goodRevs := if u.revOpen = true ∧ u.polygon ≠ .stopped then nextGood u.edgeRun u.goodRevs else u.goodRevs }

/-- An index indication (R125 to R127). -/
def takeIndex (s : State) : State :=
  match s.stu.facetSync with
  | .hunt => s.withStu (huntIndex s.stu)
  | .synced =>
    let s' := s.withStu { s.stu with edgeRun := 0 }
    if s.stu.edgeRun = Config.facets then s' else loseSync true s'

/-- The state with its index taken (R119). -/
def indexTaken (s : State) : State := s.withSen { s.sen with index := edgeTaken s.sen.index }

/-- POLYGON_INDEX: a filtered index is one index indication (R119, R125). -/
def execPolygonIndex (seen : Trace) (s : State) : Outcome :=
  let s := sense seen s
  .next (if s.sen.index.fired then conclude (takeIndex (indexTaken s)) else s)

/-- FACET_SYNC_GAINED: the count of good revolutions has reached 2; facet sync goes SYNCED (R126). -/
def execFacetSyncGained (s : State) : Outcome :=
  if s.stu.facetSync = .hunt ∧ s.stu.polygon ≠ .stopped ∧ 2 ≤ s.stu.goodRevs then
    .next (conclude (s.withStu { s.stu with facetSync := .synced }))
  else .next s

/-- EDGE_RUN_OVERFLOW: an accepted edge has brought the edge run to 12 without an index; facet sync is lost
(R127). -/
def execEdgeRunOverflow (s : State) : Outcome :=
  if s.stu.facetSync = .synced ∧ Config.edgeRunMax ≤ s.stu.edgeRun then
    .next (conclude (loseSync false s))
  else .next s

end Sys2Proof.Machine
end

