-- ==== Sys2Proof/Machine/Scan.lean ====
section
/-! DEFINITION. Scan lines (Chapter 7, 7.6 and 7.7): the accepted beam-detect edge, the line-start decision, a
line's sources, its start and its completion, and the line wait. -/

namespace Sys2Proof.Machine

open Sys2Proof

/-! ## Sources (R132, R133) -/

/-- The region that holds image line `y`, with the data-line number that IMAGE lines above it give; `k` counts
the data lines before the list (R78, R132). -/
def regionAt (y k : Nat) : List Region → Option (RegionKind × Nat)
  | [] => none
  | r :: rest =>
    if y < r.lines then some (r.kind, k + y)
    else regionAt (y - r.lines) (if r.kind = .image then k + r.lines else k) rest

/-- The slot holds data line `k` of a frame. -/
def holdsLine (fsn k : Nat) (sl : LineSlot) : Bool := holdsFrame fsn sl && sl.k == some k

/-- The source of data line `k`, none where it is not ready (R101, R133). -/
def imageSource (r : FrameRecord) (k : Nat) (s : State) : Option Source :=
  match slotIndex (holdsLine r.fsn k) s with
  | some i =>
    match (s.lst.slots[i]?).map LineSlot.state with
    | some .ready => some (.slot i)
    | some .incomplete => some (.slot i)
    | _ => none
  | none =>
    match r.data with
    | .closed => some .hold
    | .opened => if k < r.kCur then some .hold else none
    | .pending => none

/-- The source of colour `c`'s lane for scan line `line`, none where it is not ready (R132, R133). -/
def laneSource (r : FrameRecord) (line : Nat) (s : State) (c : Colour) : Option Source :=
  let voff := s.stu.vertical.get c
  if line < voff ∨ r.height ≤ line - voff then some .dark
  else
    match regionAt (line - voff) 0 r.regions with
    | some (.image, k) => imageSource r k s
    | some (.fill codes, _) => some (.fill (codes.get c))
    | some (.dark, _) => some .dark
    | none => some .dark

/-! ## The line-start decision (R131) -/

/-- Why a facet is slipped (R131). -/
inductive SlipReason where
  | sync | blanked | laser | stage | data
deriving DecidableEq, Repr

/-- What an accepted edge decides for an exposing record: nothing counted, a slip, or a line written. -/
inductive LineStart where
  | nothing
  | slip (reason : SlipReason)
  | write
deriving DecidableEq, Repr

/-- Facet sync as the line start takes it: SYNCED, and this edge is not the twelfth, at which it is lost (R127,
R131; log entry 15). -/
def facetKnown (u : Stu) : Bool := u.facetSync == .synced && decide (u.edgeRun < Config.edgeRunMax)

/-- The decision for the exposing record's next scan line, the rows of R131 in order. The edge whose period brings the run
count to 64 still finds the polygon ACQUIRING, and is a SYNC slip (DESIGN CHOICE, log entry 39). -/
def lineStart (r : FrameRecord) (s : State) : LineStart :=
  if scanLines r s ≤ s.stu.scanCounter then .nothing
  else if s.ftc.state ≠ .registered then .nothing
  else if s.stu.polygon ≠ .locked ∨ facetKnown s.stu = false then .slip .sync
  else if s.blc.latch = true then .slip .blanked
  else if allColours (fun c => (s.lmn.channels.get c).state == .ready) = false then .slip .laser
  else if s.pfm.line.isSome = true ∨ stageBusy s.ftc = true then .slip .stage
  else if allColours (fun c => (laneSource r s.stu.scanCounter s c).isSome) = false then .slip .data
  else .write

/-- A slip is counted (R131). -/
def countSlip (n : Slips) : SlipReason → Slips
  | .sync => { n with sync := bump32 n.sync }
  | .blanked => { n with blanked := bump32 n.blanked }
  | .laser => { n with laser := bump32 n.laser }
  | .stage => { n with stage := bump32 n.stage }
  | .data => { n with data := bump32 n.data }

/-! ## Writing a line (R134, R141, R144) -/

/-- The in-effect record of the facet whose edge was just accepted; for a facet the table has no record of, free
values (R125, R128; log entry 14). -/
def facetRecord (s : State) : FacetRecord :=
  match s.stu.facets[s.stu.edgeRun - 1]? with
  | some f => f
  | none =>
    { startShift := ((Config.openStartShift s.free).val : Int) - 128,
      trims := .of fun c => ((Config.openFacetTrim s.free c).val : Int) - 40 }

/-- The number of free values taken once the facet's record has been read. -/
def freeAfterFacet (s : State) : Nat :=
  if (s.stu.facets[s.stu.edgeRun - 1]?).isSome then s.free else s.free + 1

/-- A line's lead-in in ticks: start delay × 256 + start shift, at least 0 (R141). -/
def leadIn (delay : Nat) (shift : Int) : Nat := ((delay : Int) * Config.ticksPerPixel + shift).toNat

/-- The ladder of the slot that a colour's lane took. -/
def laneLadder (s : State) (c : Colour) : Ladder := (laneProfile s (s.lanes.get c)).plt.get c

/-- A colour's lane at a line start: it takes its source and latches its line offset (R62, R134). -/
def lineLane (r : FrameRecord) (trims : PerColour Int) (s : State) (c : Colour) : Lane :=
  let lane := s.lanes.get c
  { lane with
    source := (laneSource r s.stu.scanCounter s c).getD .dark
    offset := lineOffset lane.trim (s.lmn.channels.get c).drift (laneLadder s c).stamp (trims.get c) }

/-- The rung of a lane's first result on the line is loaded before position 0 (R144). -/
def preload (s : State) (width : Nat) (c : Colour) : PulseLane :=
  let pl := s.pfm.lanes.get c
  match firstRung s c width with
  | some (n, dac) => { pl with rung := some (n, dac), amplitude := dac }
  | none => pl

/-- The exposing record's next scan line is written on the facet of the edge just accepted, at time `t` (R134). -/
def startLine (t : Nat) (r : FrameRecord) (s : State) : State :=
  let f := facetRecord s
  let line : PlacedLine :=
    { scan := s.stu.scanCounter, edge := t, leadIn := leadIn s.pfm.startDelay f.startShift,
      width := r.width, placed := 0 }
  let s := (s.withLanes (.of (lineLane r f.trims s))).withFree (freeAfterFacet s)
  let s := s.withStu { s.stu with writing := some s.stu.scanCounter, lineWait := some (timebase s) }
  placeReached (s.withPfm { s.pfm with line := some line, lanes := .of (preload s r.width) })

/-- The line-start decision of an edge accepted at time `t` takes effect (R131, R134). -/
def decideLine (t : Nat) (s : State) : State :=
  match exposing s with
  | none => s
  | some r =>
    match lineStart r s with
    | .nothing => s
    | .slip reason => s.withStu { s.stu with slips := countSlip s.stu.slips reason }
    | .write => startLine t r s

/-! ## The edge and the monitor (R147, R159) -/

/-- The named colours' monitor pulses end: the pulse outputs close and the amplitudes return (R144, R147). -/
def endPulses (q : MonitorRequest) (s : State) : State :=
  s.withPfm { s.pfm with lanes := .of fun c =>
    let pl := s.pfm.lanes.get c
    if (q.shots.get c).isSome then restoreAmplitude s.blc.latch (closePulse pl) else pl }

/-- A monitor request meets an edge accepted at time `t`: an unbound one is bound to it, and a bound one whose window has
not ended has met an early edge, at which its open pulses are closed (R147). -/
def requestEdge (t : Nat) (s : State) : State :=
  match s.pfm.request with
  | none => s
  | some q =>
    match q.bound with
    | none => s.withPfm { s.pfm with request := some { q with bound := some t } }
    | some e =>
      if t < windowEnds e s then
        let s := if q.opened && undisturbed q then endPulses q s else s
        s.withPfm { s.pfm with request := some { q with sawEdge := true } }
      else s

/-- The retrace count rises at an accepted edge while a drift loop runs (R159). -/
def countRetrace (s : State) : State :=
  if anyColour (loopRuns s) then s.withLmn { s.lmn with retraceCount := (s.lmn.retraceCount + 1) % 8 } else s

/-- An edge is accepted at time `t`: the period is timed, the facet numbered, the monitor and the retrace count take
it, and the line start is decided (R119, R125). -/
def acceptEdge (t : Nat) (s : State) : State :=
  let s := timePeriod t (s.withStu { s.stu with lastEdge := some t })
  let s := s.withStu { s.stu with edgeRun := min Config.edgeRunMax (s.stu.edgeRun + 1) }
  decideLine t (countRetrace (requestEdge t s))

/-- A filtered edge at time `t` is a glitch, ignored and counted, or is accepted (R119). -/
def takeEdge (t : Nat) (s : State) : State :=
  if isGlitch t s.stu then s.withStu { s.stu with glitches := bump32 s.stu.glitches }
  else conclude (acceptEdge t s)

/-- The state with its beam-detect edge taken (R119). -/
def beamTaken (s : State) : State := s.withSen { s.sen with beam := edgeTaken s.sen.beam }

/-- BEAM_DETECT_EDGE: a filtered edge is judged (R119). -/
def execBeamDetectEdge (seen : Trace) (s : State) : Outcome :=
  let s := sense seen s
  .next (if s.sen.beam.fired then takeEdge s.clock (beamTaken s) else s)

/-! ## Completion (R111, R116, R135) -/

/-- A lane wrote from line slot `i`. -/
def wroteFrom (i : Nat) (l : Lane) : Bool := l.source == .slot i

/-- A slot after a line: the lanes that wrote from it join its lanes done, and it is freed once all three have
(R111). -/
def markSlot (lanes : PerColour Lane) (i : Nat) (sl : LineSlot) : LineSlot :=
  let done : PerColour Bool := .of fun c => sl.lanesDone.get c || wroteFrom i (lanes.get c)
  if sl.state = .free then sl
  else if done = .all true then .empty
  else { sl with lanesDone := done }

/-- A lane's hold buffer after a line of `width` pixels (R116). -/
def newHold (l : Lst) (width : Nat) (c : Colour) (lane : Lane) : Table (Option Nat) :=
  match lane.source with
  | .slot _ =>
    tableOf none Config.codeValues fun x =>
      if x < width then pixelCode l lane c x else tableRead none lane.holdBuffer x
  | _ => lane.holdBuffer

/-- The lanes after a line: each hold buffer takes the codes written (R116). -/
def updateHolds (width : Nat) (s : State) : State :=
  s.withLanes (.of fun c =>
    { s.lanes.get c with holdBuffer := newHold s.lst width c (s.lanes.get c) })

/-- The line slots after a line (R111). -/
def markSlots (s : State) : State := setSlots (s.lst.slots.mapIdx (markSlot s.lanes)) s

/-- The line in progress completes (R135). -/
def completeLine (ln : PlacedLine) (r : FrameRecord) (s : State) : State :=
  let s := changeRecord r.fsn (fun q => { q with linesWritten := q.linesWritten + 1 }) s
  let s := s.withStu { s.stu with scanCounter := ln.scan + 1, writing := none }
  let s := markSlots (updateHolds ln.width s)
  let s := s.withPfm { s.pfm with line := none, lanes := s.pfm.lanes.map closePulse }
  let s := requestStep s
  if scanLines r s ≤ ln.scan + 1 then finishRecord { r with linesWritten := r.linesWritten + 1 } s else s

/-- LINE_COMPLETE: the PFM has placed the last position of the line in progress (R135, R141). -/
def execLineComplete (s : State) : Outcome :=
  match s.pfm.line, exposing s with
  | some ln, some r => .next (atEnd (some (lineEnd ln s)) (fun s => conclude (completeLine ln r s)) s)
  | _, _ => .next s

/-- LINE_WAIT_EXPIRY (R136). -/
def execLineWaitExpiry (s : State) : Outcome :=
  .next (atEnd (lineWaitMoment s) (fun s => conclude (expireLineWait s)) s)

end Sys2Proof.Machine
end

