-- ==== Sys2Proof/Machine/Window.lean ====
section
/-! DEFINITION. SET TRIM (R73), SET PULSE GEOMETRY (R149), and the monitor window (R147, R151, R152). -/

namespace Sys2Proof.Machine

open Sys2Proof

/-! ## Pending setup -/

/-- SET TRIM (R73). -/
def ownSetTrim (args : List Byte) (s : State) : Answer × State :=
  let given : PerColour Int := ⟨sfield args 0, sfield args 2, sfield args 4⟩
  let t := given.map (limitInt (-500) 500)
  (carriedOut (t = given) (t.list.flatMap beSigned),
   s.withLanes (.of fun c => { s.lanes.get c with pendingTrim := t.get c }))

/-- SET_TRIM (R73). -/
def execSetTrim (s : State) : Outcome := .next (runCommand 0x18 6 ownSetTrim s)

/-- SET PULSE GEOMETRY (R149). -/
def ownSetPulseGeometry (args : List Byte) (s : State) : Answer × State :=
  let given : PerColour Nat := ⟨field args 0 1, field args 1 1, field args 2 1⟩
  let h := given.map (limit 0 63)
  let delay := limit 0 1023 (field args 3 2)
  let guardTicks := limit 0 32 (field args 5 1)
  (carriedOut (decide (h = given ∧ delay = field args 3 2 ∧ guardTicks = field args 5 1))
    (h.list.flatMap be1 ++ be2 delay ++ be1 guardTicks),
   s.withPfm { s.pfm with
     startDelayPending := delay
     rungGuardPending := guardTicks
     lanes := .of fun c => { s.pfm.lanes.get c with horizontalPending := h.get c } })

/-- SET_PULSE_GEOMETRY (R149). -/
def execSetPulseGeometry (s : State) : Outcome := .next (runCommand 0x30 6 ownSetPulseGeometry s)

/-! ## The monitor window (R147) -/

/-- The request as its window opens, having met a set latch or a line being placed (R147). -/
def openedRequest (q : MonitorRequest) (s : State) : MonitorRequest :=
  { q with opened := true, sawBlank := s.blc.latch, sawLine := s.pfm.line.isSome }

/-- A named colour's outputs at the window's start (R147). -/
def firePulse (shot : Option MonitorShot) (pl : PulseLane) : PulseLane :=
  match shot with
  | some m => { pl with amplitude := m.dac, pulseOpen := true }
  | none => pl

/-- The window opens: where nothing withholds the pulse, each named colour fires at its code (R147; an early edge
withholds it too, log entry 18). -/
def openWindow (q : MonitorRequest) (s : State) : State :=
  let q' := openedRequest q s
  s.withPfm { s.pfm with
    request := some q'
    lanes := if undisturbed q' then .of fun c => firePulse (q.shots.get c) (s.pfm.lanes.get c) else s.pfm.lanes }

/-- MONITOR_WINDOW_START (R147). -/
def execMonitorWindowStart (s : State) : Outcome :=
  match requestToOpen s with
  | some (q, e) => .next (atEnd (some (windowOpens e s)) (openWindow q) s)
  | none => .next s

/-- A colour's reading joins its reference capture, where it is still CAPTURING (R152). A request held when a frame
starts to expose is used too, though R155 pauses the capture: the sample counts by R152, and the capture completes
after the exposure (DESIGN CHOICE, log entry 22). -/
def addCapture (c : Colour) (reading : Nat) (s : State) : State :=
  let ch := s.lmn.channels.get c
  if ch.state = .capturing ∧ ch.captureCount < Config.captureSamples then
    changeChannel c (fun ch => { ch with captureCount := ch.captureCount + 1, captureSum := ch.captureSum + reading }) s
  else s

/-- A colour's reading gives a drift sample, where its loop still runs (R152, R159). -/
def addDrift (c : Colour) (reading : Nat) (s : State) : State :=
  let ch := s.lmn.channels.get c
  if loopRuns s c = true ∧ ch.accCount < Config.driftSamples then
    changeChannel c (fun ch => { ch with
      accCount := ch.accCount + 1
      accSum := ch.accSum + (((ch.reference.getD 0 : Nat) : Int) - reading) }) s
  else s

/-- A colour's reading joins the running measurement's step (R152, R163). -/
def addMeasure (c : Colour) (reading : Nat) (s : State) : State :=
  match s.lmn.measurement with
  | some m =>
    if m.count.get c < Config.captureSamples then
      s.withLmn { s.lmn with measurement := some { m with count := m.count.set c (m.count.get c + 1),
                                                          sum := m.sum.set c (m.sum.get c + reading) } }
    else s
  | none => s

/-- A colour's reading of a FIRED pulse is used as its request meant it (R151, R152). -/
def useReading (q : MonitorRequest) (average : PerColour Int) (s : State) (c : Colour) : State :=
  let reading := readingOf (average.get c)
  match (q.shots.get c).map MonitorShot.use with
  | some .capture => addCapture c reading s
  | some .drift => addDrift c reading s
  | some .measure => addMeasure c reading s
  | some .ended => s
  | none => s

/-- The result that the PFM hands the LMN at a window's end: FIRED, with each colour's averaged monitor input, or
NOT_FIRED with its reason (R147, R151). -/
inductive WindowResult where
  | fired (average : PerColour Int)
  | notFired (reason : NotFired)
deriving DecidableEq, Repr

/-- The result of a request's window (R147). -/
def windowResult (q : MonitorRequest) (average : PerColour Int) : WindowResult :=
  match withheld q with
  | some reason => .notFired reason
  | none => .fired average

/-- The LMN takes a window's result: the readings of a FIRED pulse are used, and a NOT_FIRED one gives no sample,
whatever its reason (R152, R159, R163). -/
def takeResult (q : MonitorRequest) (s : State) : WindowResult → State
  | .fired average => colours.foldl (useReading q average) s
  | .notFired _ => s

/-- The window ends: a pulse still open ends, the result is handed to the LMN, and the request becomes absent (R147,
R151). -/
def endWindow (q : MonitorRequest) (average : PerColour Int) (s : State) : State :=
  let s := takeResult q (if undisturbed q then endPulses q s else s) (windowResult q average)
  s.withPfm { s.pfm with request := none }

/-- The averaged inputs have been brought before the window's end, and are kept (log entry 2). -/
def keepAverage (q : MonitorRequest) (average : PerColour Int) (s : State) : State :=
  s.withPfm { s.pfm with request := some { q with brought := some average } }

/-- MONITOR_WINDOW_END (R147, R152), with each colour's averaged monitor input; that which was brought first stands. -/
def execMonitorWindowEnd (average : PerColour Int) (s : State) : Outcome :=
  match requestToEnd s with
  | some (q, e) =>
    let average := q.brought.getD average
    .next (atEnd (some (windowEnds e s)) (fun s => conclude (endWindow q average s)) (keepAverage q average s))
  | none => .next s

end Sys2Proof.Machine
end

