-- ==== Sys2Proof/Machine/Laser.lean ====
section
/-! DEFINITION. Laser channels, the drift loop and ladder measurement (Chapter 9, 9.2 to 9.4). -/

namespace Sys2Proof.Machine

open Sys2Proof

/-! ## LASER ON and LASER OFF (R153, R156) -/

/-- The data of both commands: each colour's channel state before and after, drift and epoch (R153). -/
def laserData (before after : PerColour Channel) : List Byte :=
  colours.flatMap fun c =>
    be1 (channelCode (before.get c).state) ++ be1 (channelCode (after.get c).state) ++
    beSigned (after.get c).drift ++ be2 (after.get c).epoch

/-- A channel named by LASER ON (R153). -/
def turnedOn (now : Nat) (ch : Channel) : Channel :=
  match ch.state with
  | .off => { ch with state := .warming, warmStart := some now }
  | _ => ch

/-- A channel named by LASER OFF (R156). -/
def turnedOff (ch : Channel) : Channel :=
  match ch.state with
  | .off => ch
  | _ => { ch with state := .off, warmStart := none, captureCount := 0, captureSum := 0, accCount := 0,
                   accSum := 0, lastMean := none, beyond := false }

/-- The channels with those of a colour set changed. -/
def changeSet (chosen : PerColour Bool) (f : Channel → Channel) (p : PerColour Channel) : PerColour Channel :=
  .of fun c => if chosen.get c then f (p.get c) else p.get c

/-- LASER ON (R153). -/
def ownLaserOn (args : List Byte) (s : State) : Answer × State :=
  match colourSetOf (field args 0 1) with
  | none => (refused .badArgument, s)
  | some chosen =>
    let after := changeSet chosen (turnedOn (timebase s)) s.lmn.channels
    (accepted (laserData s.lmn.channels after), conclude (s.withLmn { s.lmn with channels := after }))

/-- LASER_ON (R153). -/
def execLaserOn (s : State) : Outcome := .next (runCommand 0x38 1 ownLaserOn s)

/-- LASER OFF (R156). -/
def ownLaserOff (args : List Byte) (s : State) : Answer × State :=
  match colourSetOf (field args 0 1) with
  | none => (refused .badArgument, s)
  | some chosen =>
    if isExposing s = true ∨ s.lmn.measurement.isSome = true then (refused .busy, s)
    else
      let after := changeSet chosen turnedOff s.lmn.channels
      (accepted (laserData s.lmn.channels after),
       conclude (endUse (fun c => chosen.get c) (fun _ => true) (s.withLmn { s.lmn with channels := after })))

/-- LASER_OFF (R156). -/
def execLaserOff (s : State) : Outcome := .next (runCommand 0x39 1 ownLaserOff s)

/-! ## Warm-up and reference capture (R154, R155) -/

/-- A channel enters CAPTURING: its capture code is the reference code, and its samples start from 0 (R155). -/
def enterCapture (ch : Channel) : Channel :=
  { ch with state := .capturing, warmStart := none, captureCode := some ch.refCode, captureCount := 0,
            captureSum := 0 }

/-- WARM_UP_END (R154). -/
def execWarmUpEnd (c : Colour) (s : State) : Outcome :=
  .next (atEnd (warmMoment s c) (fun s => conclude (changeChannel c enterCapture s)) s)

/-- A channel whose capture completes (R155). -/
def captured (ch : Channel) : Channel :=
  { ch with state := .ready, reference := some (meanOf64 ch.captureSum), drift := 0,
            epoch := (ch.epoch + 1) % 65536, accCount := 0, accSum := 0, lastMean := none, beyond := false }

/-- CAPTURE_COMPLETE (R155). -/
def execCaptureComplete (c : Colour) (s : State) : Outcome :=
  if captureDue s c then .next (conclude (changeChannel c captured s))
  else .next s

/-! ## The drift loop (R160, R161) -/

/-- A colour's beyond flag is judged against a limit (R161). -/
def judged (limitMl : Nat) (ch : Channel) : Channel :=
  match ch.lastMean with
  | some mean => { ch with beyond := isBeyond limitMl mean }
  | none => ch

/-- The DRIFT trigger is signalled where a colour's flag has gone from clear to set (R161). -/
def signalDrift (before : PerColour Channel) (s : State) (c : Colour) : State :=
  if (before.get c).beyond = false ∧ (s.lmn.channels.get c).beyond = true then trigger .drift s else s

/-- A channel's drift update (R160). -/
def driftUpdated (limitMl : Nat) (ch : Channel) : Channel :=
  let mean := meanOf16 ch.accSum
  judged limitMl { ch with lastMean := some mean, drift := movedDrift ch.drift mean, accCount := 0, accSum := 0 }

/-- DRIFT_UPDATE: the accumulator count has reached 16 (R160, R161). -/
def execDriftUpdate (c : Colour) (s : State) : Outcome :=
  if Config.driftSamples ≤ (s.lmn.channels.get c).accCount then
    .next (conclude (signalDrift s.lmn.channels (changeChannel c (driftUpdated s.lmn.driftLimit) s) c))
  else .next s

/-! ## SET LASER SETUP (R157) -/

/-- The eight arguments of SET LASER SETUP. -/
structure LaserSetup where
  refCodes : PerColour Nat
  offsets : PerColour Int
  warm : Nat
  drift : Nat
deriving DecidableEq, Repr

/-- The arguments as encoded (12.4). -/
def laserSetupGiven (args : List Byte) : LaserSetup :=
  { refCodes := ⟨field args 0 2, field args 2 2, field args 4 2⟩,
    offsets := ⟨sfield args 6, sfield args 8, sfield args 10⟩, warm := field args 12 2, drift := field args 14 2 }

/-- The arguments within their ranges (R24, R157). -/
def limitedSetup (u : LaserSetup) : LaserSetup :=
  { refCodes := u.refCodes.map (limit 0 4095), offsets := u.offsets.map (limitInt (-2048) 2047),
    warm := limit 1 600 u.warm, drift := limit 20 250 u.drift }

/-- The data of SET LASER SETUP (R157). -/
def laserSetupData (u : LaserSetup) : List Byte :=
  u.refCodes.list.flatMap be2 ++ u.offsets.list.flatMap beSigned ++ be2 u.warm ++ be2 u.drift

/-- A WARMING channel whose time has reached the interval goes CAPTURING at once (R154). -/
def endWarmth (s : State) (ch : Channel) : Channel :=
  match ch.state, ch.warmStart with
  | .warming, some t => if elapsedMs t (1000 * s.lmn.warmInterval) s then enterCapture ch else ch
  | _, _ => ch

/-- The eight values are written and take effect at once (R157). -/
def applySetup (u : LaserSetup) (s : State) : State :=
  let s := s.withLmn { s.lmn with
    warmInterval := u.warm
    driftLimit := u.drift
    channels := .of fun c =>
      { s.lmn.channels.get c with refCode := u.refCodes.get c, monitorOffset := u.offsets.get c } }
  let before := s.lmn.channels
  let s := s.withLmn { s.lmn with channels := before.map fun ch => judged u.drift (endWarmth s ch) }
  colours.foldl (signalDrift before) s

/-- SET LASER SETUP (R157). -/
def ownSetLaserSetup (args : List Byte) (s : State) : Answer × State :=
  let u := limitedSetup (laserSetupGiven args)
  (carriedOut (u = laserSetupGiven args) (laserSetupData u), conclude (applySetup u s))

/-- SET_LASER_SETUP (R157). -/
def execSetLaserSetup (s : State) : Outcome := .next (runCommand 0x3A 16 ownSetLaserSetup s)

/-! ## Ladder measurement (R162 to R164) -/

/-- The number of steps of a measurement: the largest rung count (R163). -/
def measureSteps (p : ProfileSlot) : Nat := largest (rungCounts p)

/-- The reason that refuses a MEASURE LADDER of a slot, by checks 2 to 7 of R162. -/
def measureRefusal (n : Fin 2) (s : State) : Option Reason :=
  let p := profile s n
  if s.lmn.measurement.isSome then some .busy
  else if isExposing s then some .busy
  else if 0 < p.pins then some .slotPinned
  else if p.state ≠ .valid ∧ p.state ≠ .incomplete then some .badState
  else if p.kinds.plt = false then some .badState
  else if allColours (fun c => (s.lmn.channels.get c).state == .ready) = false ∨ s.stu.polygon ≠ .locked ∨
      s.blc.latch = true then some .badState
  else none

/-- A slot goes MEASURING with its prior state kept (R52). -/
def measuringSlot (p : ProfileSlot) : ProfileSlot :=
  { p with state := .measuring, prior := some (if p.state = .valid then .valid else .incomplete) }

/-- A measurement begins on a slot (R162). -/
def beginMeasurement (n : Fin 2) (s : State) : State :=
  let s := setProfile n (measuringSlot (profile s n)) s
  emptyStopped (s.withLmn { s.lmn with
    measurement := some { slot := n, step := 0, count := .all 0, sum := .all 0, measured := .all [] }
    value := .running n })

/-- MEASURE LADDER (R162). -/
def ownMeasureLadder (args : List Byte) (s : State) : Answer × State :=
  match slotOf (field args 0 1) with
  | none => (refused .badArgument, s)
  | some n =>
    match measureRefusal n s with
    | some reason => (refused reason, s)
    | none =>
      (accepted (be1 n.val ++ be2 (measureSteps (profile s n)) ++ (rungCounts (profile s n)).list.flatMap be2),
       conclude (beginMeasurement n s))

/-- MEASURE_LADDER (R162). -/
def execMeasureLadder (s : State) : Outcome := .next (runCommand 0x3B 1 ownMeasureLadder s)

/-- The measurement with the step's measured powers formed, at the next step (R163). -/
def nextStep (s : State) (m : Measurement) : Measurement :=
  { slot := m.slot, step := m.step + 1, count := .all 0, sum := .all 0,
    measured := .of fun c =>
      if namedInStep (profile s m.slot) m c then
        m.measured.get c ++ [measuredPower (m.sum.get c) (s.lmn.channels.get c).monitorOffset]
      else m.measured.get c }

/-- The validation of the measured ladders, red, green, blue (R164). -/
def measuredFailure (m : Measurement) : Option MeasureResult :=
  (firstFailure fun c =>
    powersFailure (MeasureResult.rejectedOrder c) (.rejectedSpacing c) (m.measured.get c)).map Prod.fst

/-- A ladder with its powers replaced, in rung order. -/
def withPowers (rungs : List Rung) (powers : List Nat) : List Rung :=
  rungs.zipWith (fun r p => { r with power := p }) powers

/-- The slot takes the measured powers, and each ladder its colour's drift and epoch (R52, R164). -/
def commitLadder (s : State) (m : Measurement) (p : ProfileSlot) : ProfileSlot :=
  stampLadders s { p with plt := .of fun c =>
    { p.plt.get c with rungs := withPowers (p.plt.get c).rungs (m.measured.get c) } }

/-- A measurement after its last step is validated, and committed or rejected (R164). -/
def concludeMeasurement (m : Measurement) (s : State) : State :=
  match measuredFailure m with
  | some r => endMeasurement m r s
  | none => endMeasurement m .accepted (setProfile m.slot (commitLadder s m (profile s m.slot)) s)

/-- MEASUREMENT_STEP_COMPLETE (R163, R164). -/
def execMeasurementStepComplete (s : State) : Outcome :=
  match s.lmn.measurement with
  | some m =>
    if stepDone (profile s m.slot) m then
      let m' := nextStep s m
      if m'.step < measureSteps (profile s m.slot) then
        .next (conclude (s.withLmn { s.lmn with measurement := some m' }))
      else .next (conclude (concludeMeasurement m' s))
    else .next s
  | none => .next s

end Sys2Proof.Machine
end

