-- ==== Sys2Proof/Machine/Transport.lean ====
section
/-! DEFINITION. The film transport and the gate stage (Chapter 10): the commands, the sensors and the timers. -/

namespace Sys2Proof.Machine

open Sys2Proof

/-! ## Commands (R174 to R176) -/

/-- The stage state, with the stage position where present (R174 to R176; log entry 12). -/
def stageData (f : Ftc) : List Byte :=
  be1 (stageCode f.stage) ++ (match f.position with | some p => be2 p | none => [])

/-- The reason that refuses an ADVANCE (R175). -/
def advanceRefusal (s : State) : Option Reason :=
  if s.fq.records.any (fun r => r.exposure == .positioning || r.exposure == .exposing) then some .busy
  else if s.ftc.state = .advancing ∨ s.ftc.state = .settling then some .busy
  else if s.ftc.state = .fault then some .badState
  else none

/-- ADVANCE (R175). -/
def ownAdvance (args : List Byte) (s : State) : Answer × State :=
  match advanceRefusal s with
  | some reason => (refused reason, s)
  | none =>
    let perfs := limit 1 16 (field args 0 1)
    let s' := beginAdvance perfs .command s
    (carriedOut (perfs = field args 0 1) (be1 perfs ++ be1 (transportCode s.ftc.state) ++ stageData s'.ftc),
     conclude s')

/-- ADVANCE (R175). -/
def execAdvance (s : State) : Outcome := .next (runCommand 0x40 1 ownAdvance s)

/-- The transport as TRANSPORT CLEAR leaves a FAULT (R174). -/
def clearedFtc (f : Ftc) : Ftc :=
  { f with state := .unregistered, faultCause := none, pinsIn := false, motor := false }

/-- The data of TRANSPORT CLEAR, refused or not (R174). -/
def clearData (before after : Ftc) : List Byte :=
  be1 (transportCode before.state) ++ be1 (transportCode after.state) ++ stageData after

/-- TRANSPORT CLEAR (R174). -/
def ownTransportClear (_ : List Byte) (s : State) : Answer × State :=
  if s.ftc.state = .fault then
    let f := clearedFtc s.ftc
    (accepted (clearData s.ftc f), conclude (s.withFtc f))
  else ({ refused .badState with data := clearData s.ftc s.ftc }, s)

/-- TRANSPORT_CLEAR (R174). -/
def execTransportClear (s : State) : Outcome := .next (runCommand 0x41 0 ownTransportClear s)

/-- The perf timer of a film run has reached the perf timeout (R171, R176). -/
def perfOver (s : State) : Bool :=
  match s.ftc.perfTimer with
  | some t => running s.ftc && elapsedMs t s.ftc.perfTimeout s
  | none => false

/-- The settle timer of a SETTLING transport has reached the settle interval (R172, R176). -/
def settleOver (s : State) : Bool :=
  match s.ftc.settleTimer with
  | some t => decide (s.ftc.state = .settling) && elapsedMs t s.ftc.settleInterval s
  | none => false

/-- A perf timer or settle timer that has already reached its interval ends at once (R171, R172, R176). -/
def endTimers (s : State) : State :=
  if perfOver s then conclude (enterFault .stall s) else if settleOver s then conclude (settleEnded s) else s

/-- SET TRANSPORT (R176). A timer that has already reached its new interval ends within the command, and the data give
the transport after it (log entry 9). -/
def ownSetTransport (args : List Byte) (s : State) : Answer × State :=
  let settleMs := limit 5 500 (field args 0 2)
  let perfMs := limit 20 2000 (field args 2 2)
  let s := s.withFtc { s.ftc with settleInterval := settleMs, perfTimeout := perfMs }
  let s' := endTimers s
  (carriedOut (decide (settleMs = field args 0 2 ∧ perfMs = field args 2 2))
    (be2 settleMs ++ be2 perfMs ++ be1 (transportCode s'.ftc.state) ++ stageData s'.ftc), s')

/-- SET_TRANSPORT (R176). -/
def execSetTransport (s : State) : Outcome := .next (runCommand 0x42 4 ownSetTransport s)

/-! ## The film run (R171) -/

/-- A perf edge in a film run: the counter falls by one and the perf timer restarts; elsewhere it is not used (R168,
R171). -/
def takePerf (s : State) : State :=
  if running s.ftc then s.withFtc { s.ftc with counter := s.ftc.counter - 1, perfTimer := some (timebase s) } else s

/-- The state with its perf edge taken (R168). -/
def perfTaken (s : State) : State := s.withSen { s.sen with perf := changeTaken s.sen.perf }

/-- PERF_EDGE (R168, R171). -/
def execPerfEdge (seen : Trace) (s : State) : Outcome :=
  let s := sense seen s
  .next (if s.sen.perf.fired then takePerf (perfTaken s) else s)

/-- PERF_COUNT_ZERO: the counter has reached 0; the motor stops, the pins enter and the transport goes SETTLING (R171). -/
def execPerfCountZero (s : State) : Outcome :=
  if s.ftc.state = .advancing ∧ s.ftc.phase = some .filmRun ∧ s.ftc.counter = 0 then
    .next (conclude (s.withFtc { s.ftc with
      state := .settling, phase := none, motor := false, pinsIn := true, perfTimer := none,
      settleTimer := some (timebase s) }))
  else .next s

/-- PERF_TIMEOUT: the transport goes to FAULT with cause STALL (R171). -/
def execPerfTimeout (s : State) : Outcome :=
  .next (atEnd (perfMoment s.ftc) (fun s => conclude (enterFault .stall s)) s)

/-! ## Settling and the pins (R172) -/

/-- SETTLE_END: the settle interval has ended, and the FTC reads the pin state (R172). -/
def execSettleEnd (seen : Trace) (s : State) : Outcome :=
  let s := sense seen s
  .next (atEnd (settleMoment s.ftc) (fun s => conclude (settleEnded s)) s)

/-- The filtered pin state has gone to not engaged, which faults a REGISTERED transport (R172). -/
def takePinLoss (s : State) : State :=
  if s.ftc.state = .registered then conclude (enterFault .pin s) else s

/-- The state with its pin loss taken (R168). -/
def pinTaken (s : State) : State := s.withSen { s.sen with pin := changeTaken s.sen.pin }

/-- PIN_DISENGAGED: the filtered pin state has changed to not engaged (R168, R172). -/
def execPinDisengaged (seen : Trace) (s : State) : Outcome :=
  let s := sense seen s
  .next (if s.sen.pin.fired then takePinLoss (pinTaken s) else s)

/-! ## The gate stage (R170, R177 to R179) -/

/-- The stage as a done indication ends its homing (R177). -/
def homedFtc (f : Ftc) : Ftc := { f with stage := .idle, position := some 0, stageTimer := none }

/-- An advance in stage return passes to its film run: pins out, motor on, perf timer started (R170). -/
def startFilmRun (s : State) : State :=
  if s.ftc.state = .advancing ∧ s.ftc.phase = some .stageReturn then
    s.withFtc { s.ftc with phase := some .filmRun, pinsIn := false, motor := true, perfTimer := some (timebase s) }
  else s

/-- The record at the head of the queue that waits for homing is told that it is done (R86, R177). -/
def tellHomed (s : State) : State :=
  match oldest s with
  | some r => if atStep .homing r then setStep r.fsn .homed s else s
  | none => s

/-- A done indication of a stage that is HOMING ends the homing; of a stage that does not work it is not used (R168,
R177). -/
def takeHomed (s : State) : State :=
  if s.ftc.stage = .homing then conclude (tellHomed (startFilmRun (s.withFtc (homedFtc s.ftc)))) else s

/-- The state with its done indication taken (R168). -/
def doneTaken (s : State) : State := s.withSen { s.sen with stageDone := changeTaken s.sen.stageDone }

/-- HOMING_DONE: a done indication of a stage that is not STEPPING (R168, R177). -/
def execHomingDone (seen : Trace) (s : State) : Outcome :=
  let s := sense seen s
  .next (if s.sen.stageDone.fired = true ∧ s.ftc.stage ≠ .stepping then takeHomed (doneTaken s) else s)

/-- The stage as a done indication ends its step (R178). -/
def steppedFtc (f : Ftc) : Ftc :=
  { f with stage := .idle, position := some (min Config.stageMax (f.position.getD 0 + 1)), stageTimer := none }

/-- The done indication of a step: the step ends, and a homing that waited for it starts (R177, R178). -/
def takeStepped (s : State) : State :=
  let s' := s.withFtc (steppedFtc s.ftc)
  if s.ftc.homeWaiting then startHoming s' else s'

/-- STEP_DONE: a done indication of a stage that is STEPPING (R168, R178). -/
def execStepDone (seen : Trace) (s : State) : Outcome :=
  let s := sense seen s
  .next (if s.sen.stageDone.fired = true ∧ s.ftc.stage = .stepping then takeStepped (doneTaken s) else s)

/-- The stage as its operation fails (R179). -/
def failedFtc (f : Ftc) : Ftc :=
  { f with stage := .unknown, position := none, stageTimer := none, homeWaiting := false }

/-- The stage operation fails, and the transport goes to FAULT with cause STAGE (R179). A done indication of the same
moment finds the stage UNKNOWN and is not used (R178): it is taken from its filter here, before a homing that waited
for the failed step starts (R177; log entry 32). -/
def stageFailed (s : State) : State :=
  let t := enterFault .stage ((doneTaken s).withFtc (failedFtc s.ftc))
  conclude (if s.ftc.homeWaiting then startHoming t else t)

/-- STAGE_TIMEOUT: the stage operation has not ended in its time (R179). -/
def execStageTimeout (s : State) : Outcome :=
  .next (atEnd (stageMoment s.ftc) stageFailed s)

end Sys2Proof.Machine
end

