-- ==== Sys2Proof/Machine/Blanking.lean ====
section
/-! DEFINITION. Protective blanking (Chapter 11): BLANK RESUME, SET BLANK SOURCES and the gate interlock. -/

namespace Sys2Proof.Machine

open Sys2Proof

/-- The enabled sources whose trigger conditions are present (R188). -/
def activeSources (s : State) : SourceSet := sourceSet fun t => sourceEnabled s.blc t && conditionPresent s t

/-- The data of BLANK RESUME, for every result (12.5). -/
def resumeData (s : State) : List Byte :=
  beBool (!s.blc.latch) ++ be1 s.blc.causes.toNat ++ be1 (if s.blc.latch then activeSources s else 0).toNat

/-- The latch is cleared and the cause set emptied; each amplitude takes its rung in effect's code (R148, R188). -/
def clearBlank (s : State) : State :=
  (s.withBlc { s.blc with latch := false, causes := 0 }).withPfm
    { s.pfm with lanes := s.pfm.lanes.map (restoreAmplitude false) }

/-- BLANK RESUME (R188). -/
def ownBlankResume (_ : List Byte) (s : State) : Answer × State :=
  if s.blc.latch = false then (accepted (resumeData s), s)
  else if activeSources s ≠ 0 then ({ refused .triggerActive with data := resumeData s }, s)
  else (accepted (resumeData s), conclude (clearBlank s))

/-- BLANK RESUME with argument bytes, of which its layout has none: refused with the three bytes of data that 12.5
gives for every result, where no source has been judged (R191; DESIGN CHOICE of the last byte, log entry 12). -/
def refuseResume (s : State) : Answer × State :=
  ({ refused .badArgument with data := beBool (!s.blc.latch) ++ be1 s.blc.causes.toNat ++ be1 0 }, s)

/-- BLANK_RESUME (R188). -/
def execBlankResume (s : State) : Outcome :=
  .next (runOwner 0x48 (fun args s => if args = [] then ownBlankResume args s else refuseResume s) s)

/-- The mask that a set of sources gives: the set less INTERLOCK (R187). -/
def maskOf (n : Nat) : SourceSet := BitVec.ofNat 6 n &&& 0x3E

/-- SET BLANK SOURCES (R187). What its data say of the six sources, whether each one's trigger condition is present,
is sent as one source set (DESIGN CHOICE, log entry 12: neither R187 nor 12.5 gives a layout). -/
def ownSetBlankSources (args : List Byte) (s : State) : Answer × State :=
  let n := field args 0 1
  if n < 64 then
    (accepted (be1 (maskOf n).toNat ++ be1 (sourceSet (conditionPresent s)).toNat),
     s.withBlc { s.blc with mask := maskOf n })
  else (refused .badArgument, s)

/-- SET_BLANK_SOURCES (R187). -/
def execSetBlankSources (s : State) : Outcome := .next (runCommand 0x49 1 ownSetBlankSources s)

/-- The interlock state as its change is taken (R183). -/
def interlockTaken (opens : Bool) (s : State) : State :=
  (s.withSen { s.sen with interlock := changeTaken s.sen.interlock }).withBlc { s.blc with interlockOpen := opens }

/-- INTERLOCK_OPEN: the filtered interlock goes from closed to open, which is the INTERLOCK trigger (R183). -/
def execInterlockOpen (seen : Trace) (s : State) : Outcome :=
  let s := sense seen s
  .next (if s.sen.interlock.fired = true ∧ s.sen.interlock.level = false then
    conclude (trigger .interlock (interlockTaken true s)) else s)

/-- INTERLOCK_CLOSED: the filtered interlock goes from open to closed; the latch is not touched (R183). -/
def execInterlockClosed (seen : Trace) (s : State) : Outcome :=
  let s := sense seen s
  .next (if s.sen.interlock.fired = true ∧ s.sen.interlock.level = true then interlockTaken false s else s)

end Sys2Proof.Machine
end

