-- ==== Sys2Proof/Machine/Autonomy.lean ====
section
/-! DEFINITION. What the part does on its own: the steps that are due without anything from outside, which an idle part
takes before its clock moves on (log entry 3). -/

namespace Sys2Proof.Machine

open Sys2Proof

/-- The step that executes the COMMAND of a code (12.4). -/
def commandStep : Nat → Instr
  | 0x01 => .identify | 0x02 => .readStatus | 0x03 => .clearStatus | 0x04 => .resetUnit
  | 0x10 => .tableOpen | 0x11 => .tableClose | 0x12 => .readSlot | 0x18 => .setTrim
  | 0x20 => .abortFrame | 0x21 => .flushQueue | 0x22 => .releaseQueue
  | 0x28 => .polygonStart | 0x29 => .polygonStop | 0x2A => .setPolygon | 0x2B => .setFacets
  | 0x2C => .setLineGeometry | 0x2D => .setLineWait | 0x30 => .setPulseGeometry
  | 0x38 => .laserOn | 0x39 => .laserOff | 0x3A => .setLaserSetup | 0x3B => .measureLadder
  | 0x40 => .advance | 0x41 => .transportClear | 0x42 => .setTransport
  | 0x48 => .blankResume | 0x49 => .setBlankSources
  | _ => .unknownCommand

/-- The step that executes the block at the head of the command FIFO (R21, R22). -/
def headStep (s : State) : Instr :=
  match s.cpr.fifo with
  | ⟨.table, _⟩ :: _ => .tableBlock
  | _ =>
    match headCommand s with
    | some f => commandStep f.code
    | none => .shortCommand

/-- The steps that may begin as soon as nothing else is due: the execution of the head block and the sending of the
oldest entry's block. Time passes without them too (R13, R21; log entry 3). -/
def readySteps (s : State) : List (Bool × Instr) :=
  [(mayExecute s, headStep s), ((sendable s).isSome, .transmissionBegins)]

/-- The part's own steps that are due, in the order in which an idle part takes them. -/
def dueSteps (s : State) : List Instr :=
  ((waiting s).filter fun e => decide (e.1 ≤ s.clock)).filterMap Prod.snd ++
  ((readySteps s).filter Prod.fst).map Prod.snd

/-- The first of the part's own steps that is due. -/
def dueStep (s : State) : Option Instr := (dueSteps s).head?

end Sys2Proof.Machine
end

