-- ==== Sys2Proof/Machine/Dispatch.lean ====
section
/-! DEFINITION. The dispatch of a command to its meaning, one arm for each row of spec/opcode_table.json. -/

namespace Sys2Proof.Machine

/-- What a command does to everything but the queue of commands. -/
def exec (i : Instr) (s : State) : Host.Outcome State Fault Refusal :=
  match i with
  | .powerOn => Sys2Proof.Machine.execPowerOn s
  | .markerFound seen kind length => Sys2Proof.Machine.execMarkerFound seen kind length s
  | .blockCrcFailure seen => Sys2Proof.Machine.execBlockCrcFailure seen s
  | .crcFailureLimit => Sys2Proof.Machine.execCrcFailureLimit s
  | .syncSlip seen => Sys2Proof.Machine.execSyncSlip seen s
  | .lengthError seen => Sys2Proof.Machine.execLengthError seen s
  | .linkBreak seen => Sys2Proof.Machine.execLinkBreak seen s
  | .breakEnd seen => Sys2Proof.Machine.execBreakEnd seen s
  | .unknownKind seen kind => Sys2Proof.Machine.execUnknownKind seen kind s
  | .frame seen payload => Sys2Proof.Machine.execFrame seen payload s
  | .line seen payload => Sys2Proof.Machine.execLine seen payload s
  | .fend seen payload => Sys2Proof.Machine.execFend seen payload s
  | .controlBlock seen kind payload => Sys2Proof.Machine.execControlBlock seen kind payload s
  | .tableBlock => Sys2Proof.Machine.execTableBlock s
  | .shortCommand => Sys2Proof.Machine.execShortCommand s
  | .unknownCommand => Sys2Proof.Machine.execUnknownCommand s
  | .identify => Sys2Proof.Machine.execIdentify s
  | .readStatus => Sys2Proof.Machine.execReadStatus s
  | .clearStatus => Sys2Proof.Machine.execClearStatus s
  | .resetUnit => Sys2Proof.Machine.execResetUnit s
  | .tableOpen => Sys2Proof.Machine.execTableOpen s
  | .tableClose => Sys2Proof.Machine.execTableClose s
  | .readSlot => Sys2Proof.Machine.execReadSlot s
  | .setTrim => Sys2Proof.Machine.execSetTrim s
  | .abortFrame => Sys2Proof.Machine.execAbortFrame s
  | .flushQueue => Sys2Proof.Machine.execFlushQueue s
  | .releaseQueue => Sys2Proof.Machine.execReleaseQueue s
  | .polygonStart => Sys2Proof.Machine.execPolygonStart s
  | .polygonStop => Sys2Proof.Machine.execPolygonStop s
  | .setPolygon => Sys2Proof.Machine.execSetPolygon s
  | .setFacets => Sys2Proof.Machine.execSetFacets s
  | .setLineGeometry => Sys2Proof.Machine.execSetLineGeometry s
  | .setLineWait => Sys2Proof.Machine.execSetLineWait s
  | .setPulseGeometry => Sys2Proof.Machine.execSetPulseGeometry s
  | .laserOn => Sys2Proof.Machine.execLaserOn s
  | .laserOff => Sys2Proof.Machine.execLaserOff s
  | .setLaserSetup => Sys2Proof.Machine.execSetLaserSetup s
  | .measureLadder => Sys2Proof.Machine.execMeasureLadder s
  | .advance => Sys2Proof.Machine.execAdvance s
  | .transportClear => Sys2Proof.Machine.execTransportClear s
  | .setTransport => Sys2Proof.Machine.execSetTransport s
  | .blankResume => Sys2Proof.Machine.execBlankResume s
  | .setBlankSources => Sys2Proof.Machine.execSetBlankSources s
  | .transmissionBegins => Sys2Proof.Machine.execTransmissionBegins s
  | .entrySent dt => Sys2Proof.Machine.execEntrySent dt s
  | .reportGranted => Sys2Proof.Machine.execReportGranted s
  | .noticeGranted => Sys2Proof.Machine.execNoticeGranted s
  | .compileEnd seen slot => Sys2Proof.Machine.execCompileEnd seen slot s
  | .positioningStart => Sys2Proof.Machine.execPositioningStart s
  | .exposureStart => Sys2Proof.Machine.execExposureStart s
  | .beamDetectEdge seen => Sys2Proof.Machine.execBeamDetectEdge seen s
  | .periodOverrun => Sys2Proof.Machine.execPeriodOverrun s
  | .acquireTimeout => Sys2Proof.Machine.execAcquireTimeout s
  | .polygonLock => Sys2Proof.Machine.execPolygonLock s
  | .polygonIndex seen => Sys2Proof.Machine.execPolygonIndex seen s
  | .facetSyncGained => Sys2Proof.Machine.execFacetSyncGained s
  | .edgeRunOverflow => Sys2Proof.Machine.execEdgeRunOverflow s
  | .lineComplete => Sys2Proof.Machine.execLineComplete s
  | .lineWaitExpiry => Sys2Proof.Machine.execLineWaitExpiry s
  | .monitorWindowStart => Sys2Proof.Machine.execMonitorWindowStart s
  | .monitorWindowEnd average => Sys2Proof.Machine.execMonitorWindowEnd average s
  | .warmUpEnd c => Sys2Proof.Machine.execWarmUpEnd c s
  | .captureComplete c => Sys2Proof.Machine.execCaptureComplete c s
  | .driftUpdate c => Sys2Proof.Machine.execDriftUpdate c s
  | .measurementStepComplete => Sys2Proof.Machine.execMeasurementStepComplete s
  | .perfEdge seen => Sys2Proof.Machine.execPerfEdge seen s
  | .perfCountZero => Sys2Proof.Machine.execPerfCountZero s
  | .perfTimeout => Sys2Proof.Machine.execPerfTimeout s
  | .settleEnd seen => Sys2Proof.Machine.execSettleEnd seen s
  | .pinDisengaged seen => Sys2Proof.Machine.execPinDisengaged seen s
  | .homingDone seen => Sys2Proof.Machine.execHomingDone seen s
  | .stepDone seen => Sys2Proof.Machine.execStepDone seen s
  | .stageTimeout => Sys2Proof.Machine.execStageTimeout s
  | .interlockOpen seen => Sys2Proof.Machine.execInterlockOpen seen s
  | .interlockClosed seen => Sys2Proof.Machine.execInterlockClosed seen s

end Sys2Proof.Machine
end

