-- ==== Sys2Proof/Machine/Step.lean ====
section
/-! DEFINITION. One step of the part: the command at the front of its queue, or, with nothing waiting, the first
of its own steps that is due, or the passing of time to the reference clock's next count (log entries 3 and 29). -/

namespace Sys2Proof.Machine

open Sys2Proof

/-- What the part does with nothing waiting: its first own step that is due, or else time passes to
the next count of the clock. -/
def idle (s : State) : Host.Outcome State Fault Refusal :=
  match dueStep s with
  | some i => exec i s
  | none => .next (reach (nextCount s.clock) s)

/-- One step. -/
def step (s : State) : Host.Outcome State Fault Refusal :=
  match s.pending with
  | [] => idle s
  | c :: rest => exec c (s.withPending rest)

/-- The state with the command that a word spells put at the front of its queue; unchanged where it spells none. -/
def State.withFetchWord (s : State) (nbits w : Nat) : State :=
  match decodeTableWord nbits w with
  | some c => s.withPending (c :: s.pending)
  | none => s

end Sys2Proof.Machine
end

