-- ==== Sys2Proof/Safety.lean ====
section
/-! DEFINITION. What counts as a safe run of the part, in the terms the statements use: the invariants that its
chapters promise, and the words in which the statements speak of a command's execution. -/

namespace Sys2Proof.Machine

open Sys2Proof

/-! ## Protective blanking (R148, R182) -/

/-- Every modulator output is dark: each pulse output closed, each amplitude code 0 (R148). -/
def OutputsDark (s : State) : Prop :=
  ∀ c : Colour, (s.pfm.lanes.get c).pulseOpen = false ∧ (s.pfm.lanes.get c).amplitude = 0

/-- While the blank latch is set every output is dark, and no line is being placed (R148). -/
def BlankIsDark (s : State) : Prop := s.blc.latch = true → OutputsDark s ∧ s.pfm.line = none

/-- The cause set is empty exactly while the latch is clear, and the mask never holds INTERLOCK (R182). -/
def BlankLawful (s : State) : Prop :=
  (s.blc.latch = false ↔ s.blc.causes = 0) ∧ s.blc.mask.getLsbD 0 = false

/-! ## Status (R26) -/

/-- The CPR's copy of the conditions holds every owner's current value (R26). -/
def CopyIsCurrent (s : State) : Prop := s.cpr.current = ownerValues s

/-! ## Queues (R13, R20, R21) -/

/-- The command FIFO holds up to 8 blocks and the outbound queue up to 32 entries; between two steps no block is
in execution and no entry is reserved; and a transmission in progress is that of an entry (R13, R14, R20, R21). -/
def QueuesBounded (s : State) : Prop :=
  s.cpr.fifo.length ≤ Config.fifoDepth ∧ s.rtx.entries.length ≤ Config.outboundDepth ∧
  s.cpr.executing = none ∧ OutEntry.reserved ∉ s.rtx.entries ∧ (s.rtx.sending = true → s.rtx.entries ≠ [])

/-! ## Frames (R80, R88) -/

/-- No two records carry one FSN, and records and waiting reports are at most 4 together (R80, R88). -/
def FramesBounded (s : State) : Prop :=
  (s.fq.records.map FrameRecord.fsn).Nodup ∧
  s.fq.records.length + s.fq.backlog.length ≤ Config.frameRecords

/-! ## The Line Store (R19, R99, R100) -/

/-- There are forty line slots, HOLD is asserted with 6 or fewer FREE and released with 10 or more (R19, R99). -/
def HoldFollows (s : State) : Prop :=
  s.lst.slots.length = Config.lineSlots ∧
  (freeSlots s.lst ≤ Config.holdAssert → s.lst.hold = true) ∧
  (Config.holdRelease ≤ freeSlots s.lst → s.lst.hold = false)

/-! ## Addressed tables (R35, R115) -/

/-- The addressed tables of a profile slot have their canonical form. -/
def SlotTablesWf (p : ProfileSlot) : Prop :=
  tableWf 0 p.cdt = true ∧ ∀ c : Colour, tableWf Compiled.base (p.compiled.get c) = true

/-- Every addressed table has its canonical form: the CDTs, the compiled tables and the hold buffers. -/
def TablesWf (s : State) : Prop :=
  SlotTablesWf s.pst.slot0 ∧ SlotTablesWf s.pst.slot1 ∧
  ∀ c : Colour, tableWf (none : Option Nat) (s.lanes.get c).holdBuffer = true

/-! ## Laser channels (R160) -/

/-- Each colour's drift correction lies within -250..+250 mL (R160). -/
def DriftInRange (s : State) : Prop :=
  ∀ c : Colour, -250 ≤ (s.lmn.channels.get c).drift ∧ (s.lmn.channels.get c).drift ≤ 250

/-- A state that keeps all that the chapters promise of every moment. -/
def Safe (s : State) : Prop :=
  BlankIsDark s ∧ BlankLawful s ∧ CopyIsCurrent s ∧ QueuesBounded s ∧ FramesBounded s ∧ HoldFollows s ∧
  TablesWf s ∧ DriftInRange s

/-! ## What a step leaves alone -/

/-- The parts of State. -/
inductive Part where
  | pending | clock | free | lrx | cpr | rtx | pst | fq | lst | lanes | stu | pfm | lmn | blc | ftc | sen
deriving DecidableEq, Repr

/-- A part is the same in two states. -/
def samePart (s t : State) : Part → Prop
  | .pending => t.pending = s.pending
  | .clock => t.clock = s.clock
  | .free => t.free = s.free
  | .lrx => t.lrx = s.lrx
  | .cpr => t.cpr = s.cpr
  | .rtx => t.rtx = s.rtx
  | .pst => t.pst = s.pst
  | .fq => t.fq = s.fq
  | .lst => t.lst = s.lst
  | .lanes => t.lanes = s.lanes
  | .stu => t.stu = s.stu
  | .pfm => t.pfm = s.pfm
  | .lmn => t.lmn = s.lmn
  | .blc => t.blc = s.blc
  | .ftc => t.ftc = s.ftc
  | .sen => t.sen = s.sen

/-- Every part but those listed is the same in two states. -/
def SameBut (touched : List Part) (s t : State) : Prop := ∀ p, p ∉ touched → samePart s t p

/-- Of the CPR, nothing changes but what a NOTICE changes: the latch flags, the copy and a waiting notice (R27). -/
def CprNoticed (s t : State) : Prop :=
  t.cpr.fifo = s.cpr.fifo ∧ t.cpr.executing = s.cpr.executing ∧ t.cpr.controlOverruns = s.cpr.controlOverruns ∧
  t.cpr.controlErrors = s.cpr.controlErrors ∧ t.cpr.loadPointer = s.cpr.loadPointer ∧
  t.cpr.resetCause = s.cpr.resetCause ∧ t.cpr.reported = s.cpr.reported

/-! ## Time, as the statements speak of it (R118, R139 to R146) -/

/-- A line being placed with the count of its positions set aside. -/
def sameLine (ln : PlacedLine) : PlacedLine := { ln with placed := 0 }

/-- What time passing leaves alone: the setup of the lanes and of the PFM, the monitor request, and of the line being
placed all but how many positions have begun. -/
def PlacingKeeps (s t : State) : Prop :=
  t.pfm.request = s.pfm.request ∧ t.pfm.line.map sameLine = s.pfm.line.map sameLine ∧
  t.pfm.startDelay = s.pfm.startDelay ∧ t.pfm.rungGuard = s.pfm.rungGuard ∧
  t.pfm.startDelayPending = s.pfm.startDelayPending ∧ t.pfm.rungGuardPending = s.pfm.rungGuardPending ∧
  ∀ c : Colour,
    (t.lanes.get c).trim = (s.lanes.get c).trim ∧ (t.lanes.get c).pendingTrim = (s.lanes.get c).pendingTrim ∧
    (t.lanes.get c).offset = (s.lanes.get c).offset ∧ (t.lanes.get c).source = (s.lanes.get c).source ∧
    (t.lanes.get c).holdBuffer = (s.lanes.get c).holdBuffer ∧ (t.lanes.get c).slot = (s.lanes.get c).slot ∧
    (t.pfm.lanes.get c).horizontal = (s.pfm.lanes.get c).horizontal ∧
    (t.pfm.lanes.get c).horizontalPending = (s.pfm.lanes.get c).horizontalPending

/-! ## Blocks on the inbound lane, as the statements speak of them (R2, R3, R6) -/

/-- A block of this kind and payload stands first on a SYNCED lane that receives blocks, whole and with the CRC of R3,
and these bytes have been heard behind it (R2, R3, R6). -/
def BlockArrived (kind : Byte) (payload rest : List Byte) (l : Lrx) : Prop :=
  l.link = .synced ∧ l.crcRun < 3 ∧ payload.length ≤ Config.maxLength ∧
  l.buffer = blockBytes kind.toNat payload ++ rest

/-- The LRX with what has been heard up to a later state: its bytes, and the break timer (R1, R8). -/
def heardAs (e s : State) : Lrx :=
  { s.lrx with buffer := e.lrx.buffer, stirred := e.lrx.stirred, lastTransition := e.lrx.lastTransition }

/-- The LRX with what a trace has brought it (R1, R8). -/
def heardBy (seen : Trace) (s : State) : Lrx := heardAs (sense seen s) s

/-! ## The execution of a command, as the statements speak of it (R14, R21, R23) -/

/-- A COMMAND with this tag, code and argument bytes stands at the head of the FIFO, and nothing holds it back: no block is
in execution, and the occupancy is 23 or less. -/
def CommandReady (tag code : Nat) (args : List Byte) (s : State) : Prop :=
  headCommand s = some ⟨tag, code, args⟩ ∧ s.cpr.executing = none ∧
  s.rtx.entries.length ≤ Config.executeLimit ∧ OutEntry.reserved ∉ s.rtx.entries

/-- The command has left the FIFO, and its REPLY stands at the young end of the outbound queue. -/
def answeredWith (tag code : Nat) (a : Answer) (s : State) : State :=
  (s.withCpr { s.cpr with fifo := s.cpr.fifo.tail, executing := none }).withRtx
    { s.rtx with entries := s.rtx.entries ++
        [.block (.reply { stream := false, tag := tag, code := code, result := a.result, reason := a.reason,
                          data := a.data })] }

/-- The block at the head of the FIFO has left it without an answer. -/
def takenSilently (s : State) : State := s.withCpr { s.cpr with fifo := s.cpr.fifo.tail, executing := none }

/-! ## What the status latch and the monitor request add to a step (R17, R26, R27, R152) -/

/-- Of the CPR and the RTX, nothing changes but what a NOTICE changes: no entry but a NOTICE's is altered, and new
entries stand at the young end (R13, R17, R27). -/
def Noticed (s t : State) : Prop :=
  CprNoticed s t ∧ t.rtx.sending = s.rtx.sending ∧ t.rtx.lane = s.rtx.lane ∧
  t.rtx.droppedRefusals = s.rtx.droppedRefusals ∧
  ∀ (i : Nat) (e : OutEntry), s.rtx.entries[i]? = some e → isNotice e = false → t.rtx.entries[i]? = some e

/-- The owners' values have been reported: the CPR's copy is current, and nothing else of the CPR and the RTX changes
but what a NOTICE changes (R26, R27). -/
def Told (s t : State) : Prop := Noticed s t ∧ CopyIsCurrent t

/-- Where some colour needs a monitor pulse, the request for the coming retrace names each colour that does, at its
code, and waits for an edge; where none does, none is held (R152). -/
def RequestComposed (t : State) : Prop :=
  ((∃ c : Colour, neededShot t c ≠ none) → t.pfm.request = some
    { shots := ⟨neededShot t .red, neededShot t .green, neededShot t .blue⟩, bound := none, opened := false,
      sawBlank := false, sawLine := false, sawEdge := false, brought := none }) ∧
  ((∀ c : Colour, neededShot t c = none) → t.pfm.request = none)

/-- Of the PFM nothing changes but that, where no monitor request was held, one is composed as is needed (R152). -/
def MonitorAsked (s t : State) : Prop :=
  t.pfm = { s.pfm with request := t.pfm.request } ∧ (s.pfm.request.isSome = true → t.pfm.request = s.pfm.request) ∧
  (s.pfm.request = none → RequestComposed t)

/-- An accepted edge at a time has met the monitor request: one not yet bound is bound to it, a bound one whose window has
not ended is marked by it, and where none was held the next one is composed (R147, R152). -/
def RequestMet (now : Nat) (s t : State) : Prop :=
  (s.pfm.request = none → RequestComposed t) ∧
  ∀ q : MonitorRequest, s.pfm.request = some q →
    (q.bound = none → t.pfm.request = some { q with bound := some now }) ∧
    ∀ edge, q.bound = some edge → t.pfm.request = some
      (if now < edge + 4928 * 256 * s.stu.nominal then { q with sawEdge := true } else q)

/-- An accepted edge at a time has cut short the pulses of a window that is open and that nothing withheld: each named
colour's output closes and its amplitude returns to the rung in effect, or is 0 under the latch; nothing else of the
colours changes (R144, R147). -/
def PulsesCut (now : Nat) (s t : State) : Prop :=
  let cut := fun (c : Colour) => ∃ (q : MonitorRequest) (edge : Nat), s.pfm.request = some q ∧ q.bound = some edge ∧
    now < edge + 4928 * 256 * s.stu.nominal ∧ q.opened = true ∧ q.sawBlank = false ∧ q.sawLine = false ∧
    q.sawEdge = false ∧ q.shots.get c ≠ none
  ∀ c : Colour,
    (cut c → t.pfm.lanes.get c = { s.pfm.lanes.get c with
      pulseOpen := false, pulse := none,
      amplitude := if s.blc.latch then 0 else ((s.pfm.lanes.get c).rung.map Prod.snd).getD 0 }) ∧
    (¬ cut c → t.pfm.lanes.get c = s.pfm.lanes.get c)

/-! ## Reports, as the statements speak of them (R72, R89, R96) -/

/-- What the report of a record says of it, in the state in which it is made: the frame's numbers, its lines, its flags,
its setup, and, for an EXPOSING record, the slips and each colour's pixel counts, which are else 0 (R72, R96). -/
def ReportTells (r : FrameRecord) (s : State) (rep : Report) : Prop :=
  rep.fsn = r.fsn ∧ rep.tag = r.tag ∧ rep.slot = r.slot ∧ rep.complete = r.complete ∧
  rep.partialLines = r.partialLines ∧ rep.excess = r.excess ∧ rep.staleLadder = r.staleLadder ∧
  rep.linesWritten = r.linesWritten ∧ rep.setup = r.setup ∧
  (let offsets := match r.setup with
     | some u => u.vertical
     | none => s.stu.verticalPending
   rep.scanLines = r.height + max offsets.red (max offsets.green offsets.blue)) ∧
  (r.exposure = .exposing → rep.slips = s.stu.slips ∧ ∀ c : Colour, rep.counts.get c =
    { densityClips := (s.lanes.get c).densityClips, powerClips := (s.lanes.get c).powerClips,
      floorClamps := (s.lanes.get c).floorClamps, truncations := (s.pfm.lanes.get c).truncations }) ∧
  (r.exposure ≠ .exposing → rep.slips = ⟨0, 0, 0, 0, 0⟩ ∧ ∀ c : Colour, rep.counts.get c = ⟨0, 0, 0, 0⟩)

/-- What the report of an aborted record says: its cause and side, every line not yet decided as missing, and the outcome
ABORTED where its data side was not yet CLOSED (R83, R89, R96, R110). -/
def AbortReport (cause : AbortCause) (r : FrameRecord) (s : State) (rep : Report) : Prop :=
  ReportTells r s rep ∧ rep.abortCause = some cause ∧ rep.sideAtAbort = some r.exposure ∧
  rep.missing = (match r.data with
    | .closed => r.missing
    | .pending => r.missing + r.dataLines
    | .opened => r.missing + (r.dataLines - r.kCur)) ∧
  rep.dataOutcome = (if r.data = .closed then dataOutcome r else .aborted) ∧
  (r.exposure ≠ .exposing → rep.abortLine = none ∧ rep.midLine = none)

/-! ## Aborts and blanking, as the statements speak of them (R89, R90, R185, R186) -/

/-- A POSITIONING or EXPOSING record has been aborted with a cause: it has left a queue that is now HELD, and behind the
entries and the backlog of before stands its report, with the cause, the side it had and, for an exposing one, the line
it had reached (R89, R90). -/
def AbortedWith (cause : AbortCause) (r : FrameRecord) (s t : State) : Prop :=
  (∀ q ∈ t.fq.records, q.fsn ≠ r.fsn) ∧ t.fq.held = true ∧
  ∃ rep : Report, rep.fsn = r.fsn ∧ rep.abortCause = some cause ∧ rep.sideAtAbort = some r.exposure ∧
    (r.exposure = .exposing → rep.abortLine = some (s.stu.writing.getD s.stu.scanCounter) ∧
      rep.midLine = some s.stu.writing.isSome ∧ t.stu.lineWait = none) ∧
    (.block (.report rep) ∈ t.rtx.entries.drop s.rtx.entries.length ∨ rep ∈ t.fq.backlog.drop s.fq.backlog.length)

/-- A monitor request that was held as the blank latch was set is still held, with its colours: one whose window is open
has met the latch, and so will one whose window has still to open, where it opens in the state left; a request that has
met the latch ends NOT_FIRED with BLANKED (R147, R185). -/
def RequestDarkened (s t : State) : Prop :=
  ∀ q : MonitorRequest, s.pfm.request = some q → ∃ q' : MonitorRequest, t.pfm.request = some q' ∧
    q'.opened = q.opened ∧ (∀ c : Colour, (q'.shots.get c).isSome = (q.shots.get c).isSome) ∧
    (q.opened = true → q'.sawBlank = true) ∧ (openedRequest q' t).sawBlank = true ∧
    ∀ average, q'.sawBlank = true → windowResult q' average = .notFired .blanked

/-- An enabled trigger has reached the blanking: a set latch takes its source among the causes; a clear one is set with
it alone, and then every output is dark, no line is being placed, an exposing record is aborted with the cause given, a
running measurement is abandoned and its slot as it was, every drift accumulator is empty, and a monitor request that is
held stays held with its colours: one whose window is open will end NOT_FIRED with BLANKED, and one whose window has
still to open has met the latch where it opens under it (R147, R185, R186, R52, R165). -/
def Blanked (source : CauseSet) (cause : AbortCause) (s t : State) : Prop :=
  t.blc = { s.blc with latch := true, causes := if s.blc.latch then s.blc.causes ||| source else source } ∧
  (s.blc.latch = false →
    OutputsDark t ∧ t.pfm.line = none ∧ t.stu.writing = none ∧ t.lmn.measurement = none ∧
    (∀ c : Colour, (t.lmn.channels.get c).accCount = 0 ∧ (t.lmn.channels.get c).accSum = 0) ∧
    (∀ m : Measurement, s.lmn.measurement = some m → t.lmn.value = .result .abandoned m.slot ∧
      ∀ p, (profile s m.slot).prior = some p →
        (profile t m.slot).state = match p with | .valid => .valid | .incomplete => .incomplete) ∧
    RequestDarkened s t ∧
    (∀ r : FrameRecord, s.fq.records.head? = some r → r.exposure = .exposing → AbortedWith cause r s t))

/-- The transport's FAULT has been signalled: where TRANSPORT is an enabled source the trigger has reached the blanking,
and a record POSITIONING or EXPOSING is aborted with TRANSPORT (R90, R173). -/
def FaultSignalled (s t : State) : Prop :=
  (s.blc.mask.getLsbD 3 = true → Blanked 0x08 .transport s t) ∧ (s.blc.mask.getLsbD 3 = false → t.blc = s.blc) ∧
  (∀ r : FrameRecord, s.fq.records.head? = some r →
    (r.exposure = .positioning ∨ r.exposure = .exposing → AbortedWith .transport r s t) ∧
    (r.exposure = .waiting ∨ r.exposure = .finished → t.fq = s.fq)) ∧
  (s.fq.records = [] → t.fq = s.fq) ∧ CopyIsCurrent t

/-! ## What the inputs leave, as the statements speak of it -/

/-- The clock and the LRX stand as they did when time and the inputs had come this far (log entry 2). -/
def Came (e s t : State) : Prop := t.clock = e.clock ∧ t.lrx = heardAs e s

/-- The inputs of a trace have come: the clock and the LRX stand as they leave them (log entry 2). -/
def Sensed (seen : Trace) (s t : State) : Prop := Came (sense seen s) s t

end Sys2Proof.Machine
end

