-- ==== Sys2Proof/Certificates/Slice0/Obligations.lean ====
section
/-! DEFINITION. What the provers are asked to prove of the part: one proposition for each obligation, taken from the
numbered rules of the spec (OBLIGATIONS.json says which). A moment is held in parts of a reference-clock count (log
entry 26): a count is 1310720 of them, a sampling interval of 100 counts 131072000, a millisecond 131072000000, and a
tick N. -/

open Sys2Proof Sys2Proof.Machine

/-- O1. For every state whose queue has command c in front, the step is exec of c on the state with the queue's rest
(the model's queue, log entry 29). -/
def Obligations.StepRunsTheFrontCommand : Prop :=
  ∀ (c : Instr) (rest : List Instr) (s : State), s.pending = c :: rest → step s = exec c (s.withPending rest)

/-- O2. On an empty queue a step is exec of the first of the part's own steps that is due, and where none is due time
passes to the reference clock's next count. Time passes to a moment where nothing waits of an earlier one, and
never past the moment of what waits. Nothing waits of a moment before t exactly where, for t later than now, no
count stands at its limit, no event of the lane waits, no record can start positioning or exposing and no free
outbound entry can be granted; and in any case no sensor's filter holds an event before t or would have one if its
input went on showing its level, the block being sent has not gone out before t, and no timer, window, line or
compile that runs ends before t. The row of a timer's or a window's end that time does not reach does nothing but
let time pass as far as it can. All of this is the model's choice (log entries 2 and 3), and so is the unit of
moments, 1310720 to the count, in which a tick is N long (log entry 26). -/
def Obligations.IdlePartTakesItsOwnStepOrATick : Prop :=
  ∀ (t : Nat) (s : State),
    (s.pending = [] →
      (∀ i, dueStep s = some i → step s = exec i s) ∧
      (dueStep s = none → step s = .next (reach ((s.clock / 1310720 + 1) * 1310720) s)) ∧
      (∀ (m : Nat) (i : Instr), (m, some i) ∈ waiting s → m ≤ s.clock →
        (∀ x ∈ waiting s, x ≠ (m, some i) → s.clock < x.1) → step s = exec i s)) ∧
    (s.clock ≤ t → (∀ x ∈ waiting s, t ≤ x.1) → (passTo t s).clock = t) ∧
    (∀ x ∈ waiting s, (passTo t s).clock ≤ max s.clock x.1) ∧
    (let ends := fun (start ms : Nat) => t ≤ (start + ms) * 131072000000
     let after := fun (edge periods : Nat) => t ≤ edge + periods * 256 * s.stu.nominal
     let edge := fun (f : EdgeFilter) => (f.fired = true → t ≤ s.clock) ∧
       (f.fired = false → f.shown = true → f.run < 4 → t ≤ (s.clock / 1310720 + (4 - f.run)) * 1310720)
     let change := fun (level : Bool) (f : LevelFilter) => (f.fired = true → t ≤ s.clock) ∧
       (f.fired = false → f.shown = level → f.level ≠ level → t ≤ (s.clock / 131072000 + max 1 (4 - f.run)) * 131072000)
     let u := s.stu
     let f := s.ftc
     let ch := fun c => s.lmn.channels.get c
     (∀ x ∈ waiting s, t ≤ x.1) ↔
      (s.clock < t →
       (¬ (s.lrx.link = .synced ∧ 3 ≤ s.lrx.crcRun) ∧ ¬ (u.facetSync = .synced ∧ 12 ≤ u.edgeRun) ∧
        ¬ (u.polygon = .acquiring ∧ 64 ≤ u.runCount) ∧
        ¬ (u.facetSync = .hunt ∧ u.polygon ≠ .stopped ∧ 2 ≤ u.goodRevs) ∧
        ¬ (f.state = .advancing ∧ f.phase = some .filmRun ∧ f.counter = 0) ∧
        (∀ c, ¬ ((ch c).state = .capturing ∧ 64 ≤ (ch c).captureCount ∧ isExposing s = false) ∧
          (ch c).accCount < 16) ∧
        (∀ w, s.lmn.measurement = some w → ∃ c : Colour,
          w.step < ((profile s w.slot).plt.get c).rungs.length ∧ w.count.get c < 64)) ∧
       laneEvent s.lrx = none ∧
       (∀ r : FrameRecord, s.fq.records.head? = some r →
         ¬ (r.exposure = .positioning ∧ r.step = some .homed ∧ s.lmn.measurement = none) ∧
         ¬ (r.exposure = .waiting ∧ s.fq.held = false)) ∧
       (s.rtx.entries.length < 32 → s.cpr.waitingNotice = none ∧ s.fq.backlog = [] ∧
         ∀ r ∈ s.fq.records, r.exposure ≠ .finished)) ∧
      (edge s.sen.beam ∧ edge s.sen.index ∧ change true s.sen.perf ∧ change true s.sen.stageDone ∧
       change false s.sen.pin ∧ change true s.sen.interlock ∧ change false s.sen.interlock ∧
       (s.sen.sent = true → t ≤ s.clock)) ∧
      ((∀ t0, u.polygon ≠ .stopped → u.periodStart = some t0 → u.periodOverrun = false →
         t ≤ t0 + (u.nominal + (if u.polygon = .locked then u.nominal / 200 else u.nominal / 1000) + 1) * 1310720) ∧
       (∀ t0, u.polygon = .acquiring → u.acquireTimer = some t0 → ends t0 u.acquireLimit) ∧
       (∀ ln, s.pfm.line = some ln → isExposing s = true →
         t ≤ ln.edge + (ln.leadIn + (ln.width + 63) * 256) * u.nominal) ∧
       (∀ t0, u.lineWait = some t0 → ends t0 u.lineWaitLimit) ∧
       (∀ q e, s.pfm.request = some q → q.bound = some e → after e (if q.opened then 4928 else 4672)) ∧
       (∀ c t0, (ch c).state = .warming → (ch c).warmStart = some t0 → ends t0 (1000 * s.lmn.warmInterval)) ∧
       (∀ t0, f.state = .advancing → f.phase = some .filmRun → 0 < f.counter → f.perfTimer = some t0 →
         ends t0 f.perfTimeout) ∧
       (∀ t0, f.state = .settling → f.settleTimer = some t0 → ends t0 f.settleInterval) ∧
       (∀ t0, f.stage = .homing → f.stageTimer = some t0 → ends t0 500) ∧
       (∀ t0, f.stage = .stepping → f.stageTimer = some t0 → ends t0 20) ∧
       (s.lrx.link ≠ .broken → t ≤ s.lrx.lastTransition + 131072000000) ∧
       ∀ n : Fin 2, (profile s n).state = .compiling → t ≤ (profile s n).compileEnds.getD 0)) ∧
    ∀ (m : Nat) (i : Instr), i ∈ [Instr.periodOverrun, .acquireTimeout, .lineComplete, .lineWaitExpiry,
        .monitorWindowStart, .warmUpEnd .red, .warmUpEnd .green, .warmUpEnd .blue, .perfTimeout, .stageTimeout] →
      (m, some i) ∈ waiting s → (reach m s).clock < m → exec i s = .next (reach m s)

/-- O3. For every command and every state, exec answers a next state, whose queue is the one before: the part has no
stop. -/
def Obligations.EveryCommandCompletesAndLeavesTheQueue : Prop :=
  ∀ (c : Instr) (s : State), ∃ t, exec c s = .next t ∧ t.pending = s.pending

/-- O4. Time passing to a moment takes the clock to the later of now and that moment and samples the sensors up to it
(when and how is log entry 7). With no line being placed nothing else changes. With one, its positions begun by
then (position p begins 256 p ticks after the lead-in, a tick being N of the 1310720 parts of a count in which
moments are held, log entry 26) are placed: each position's result counts as a density clip, power clip or floor
clamp of its lane (R71) and is placed by the rule of R143 to R146, and each pulse output is open exactly where the
last position's pulse covers the tick reached. No trim, offset, source, hold buffer, slot, geometry, monitor
request, and of the line nothing but its count of positions, changes. -/
def Obligations.TimeMovesOnlyTheClockAndThePlacing : Prop :=
  ∀ (t : Nat) (s : State),
    let e := advanceTo t s
    let moved := (s.withSen (passSensors s.clock (max s.clock t) s.sen)).withClock (max s.clock t)
    SameBut [.clock, .sen, .lanes, .pfm] s e ∧ e.clock = max s.clock t ∧ e.sen = moved.sen ∧
    PlacingKeeps s e ∧ (s.pfm.line = none → e = moved) ∧
    ∀ ln : PlacedLine, s.pfm.line = some ln →
      let ticks := (max s.clock t - ln.edge) / s.stu.nominal
      let begun := if ticks < ln.leadIn then 0 else min (ln.width + 63) ((ticks - ln.leadIn) / 256 + 1)
      let tick := ticks - ln.leadIn - 256 * (begun - 1)
      (begun = 0 → e = moved) ∧
      (0 < begun →
        e.pfm.line = some { ln with placed := max ln.placed begun } ∧
        ∀ c : Colour,
          let results := (List.range' ln.placed (begun - ln.placed)).map (resultAt s c ln.width)
          let count := fun (flag : LaneResult → Bool) (n : Nat) =>
            results.foldl (fun n r => if flag r then bump32 n else n) n
          let placed := results.foldl (placeLane s.pfm.rungGuard) (s.pfm.lanes.get c)
          e.lanes.get c = { s.lanes.get c with
            densityClips := count (fun r => match r with | .pulse _ _ _ d _ _ => d | .dark => false)
              (s.lanes.get c).densityClips
            powerClips := count (fun r => match r with | .pulse _ _ _ _ p _ => p | .dark => false)
              (s.lanes.get c).powerClips
            floorClamps := count (fun r => match r with | .pulse _ _ _ _ _ f => f | .dark => false)
              (s.lanes.get c).floorClamps } ∧
          e.pfm.lanes.get c = { placed with
            pulseOpen := match placed.pulse with
              | some (a, b) => decide (a ≤ tick ∧ tick ≤ b)
              | none => false })

/-- O5. When new condition values are reported, the CPR's copy takes them. With no fresh change (a change of a
condition whose latch flag is clear) nothing else changes. Otherwise the fresh conditions' latch flags are set and
one NOTICE with that changed set, the flags as they then stand and the new values is handed on, and nothing else
changes: with no notice pending it takes a free entry at the young end, also while a NOTICE is being sent, or
waits where the queue is full; one pending in an entry behind a block being sent, or in a queue that sends
nothing, keeps its entry and takes the new contents and the union of the changed sets; one that waits does so too
and goes on waiting. What changes are one NOTICE and the flags it shows are the model's reading (log entry 10);
that it takes the free entry also where a REPORT waits for one is its choice (log entry 40). -/
def Obligations.FreshChangesProduceOneNotice : Prop :=
  ∀ (v : Conditions) (s : State),
    let fresh := condSet (condChanged s.cpr.current v) &&& ~~~s.cpr.latch
    let n : Notice := { changed := fresh, latch := s.cpr.latch ||| fresh, values := v }
    let told := s.withCpr { s.cpr with current := v, latch := s.cpr.latch ||| fresh }
    (reportValues v s).cpr.current = v ∧
    SameBut [.cpr, .rtx] s (reportValues v s) ∧ CprNoticed s (reportValues v s) ∧
    (fresh = 0 → reportValues v s = s.withCpr { s.cpr with current := v }) ∧
    (fresh ≠ 0 →
      ((unsent s.rtx).any isNotice = false →
        (s.cpr.waitingNotice = none → s.rtx.entries.length < 32 →
          reportValues v s =
            told.withRtx { s.rtx with entries := s.rtx.entries ++ [.block (.notice n)] }) ∧
        (s.cpr.waitingNotice = none → 32 ≤ s.rtx.entries.length →
          reportValues v s = told.withCpr { told.cpr with waitingNotice := some n }) ∧
        (∀ old : Notice, s.cpr.waitingNotice = some old →
          reportValues v s = told.withCpr
            { told.cpr with waitingNotice := some { n with changed := old.changed ||| fresh } })) ∧
      (∀ (sent a b : List OutEntry) (old : Notice),
        s.rtx.entries = sent ++ a ++ .block (.notice old) :: b →
        sent.length = (if s.rtx.sending = true then 1 else 0) →
        a.any isNotice = false → b.any isNotice = false →
        reportValues v s = told.withRtx { s.rtx with
          entries := sent ++ a ++ .block (.notice { n with changed := old.changed ||| fresh }) :: b }))

/-- O6. From every state POWER_ON goes on to the power-on values of every part of State (the queue of commands and the
count of free values taken stay, the sensor inputs show what they showed, and what has been brought is still to
come, log entry 28; the values that the spec does not give, the sensor filters, the bytes heard, the break timer
and the outbound lane among them, are those of log entries 7 and 23); among them: link HUNT, empty queues and
FIFO, reset cause POWER, blank latch set with cause POWER, polygon STOPPED, facet sync HUNT, transport
UNREGISTERED, stage UNKNOWN, channels OFF, forty FREE slots, nominal period 100,000, line wait 5000 ms, settle 60
ms and perf timeout 200 ms. -/
def Obligations.PowerOnGivesThePowerOnValues : Prop :=
  ∀ s : State, ∃ t, exec .powerOn s = .next t ∧ SameBut [.pending, .free, .sen] State.reset t ∧
    t.pending = s.pending ∧ t.free = s.free ∧
    t.sen = { beam := { shown := s.sen.beam.shown, run := 0, fired := false },
              index := { shown := s.sen.index.shown, run := 0, fired := false },
              perf := { shown := s.sen.perf.shown, level := false, run := 0, fired := false },
              pin := { shown := s.sen.pin.shown, level := false, run := 0, fired := false },
              stageDone := { shown := s.sen.stageDone.shown, level := false, run := 0, fired := false },
              interlock := { shown := s.sen.interlock.shown, level := false, run := 0, fired := false },
              sent := false, coming := s.sen.coming.map fun x => (x.1 - s.clock, x.2) } ∧
    t.lrx.link = .hunt ∧ t.rtx.entries = [] ∧ t.cpr.fifo = [] ∧ t.cpr.executing = none ∧
    t.cpr.latch = 0 ∧ t.cpr.waitingNotice = none ∧ t.cpr.reported = t.cpr.current ∧ t.cpr.resetCause = .power ∧
    t.cpr.loadPointer = none ∧ t.blc.latch = true ∧ t.blc.causes = 0x40 ∧ t.blc.mask = 0x1E ∧
    t.blc.interlockOpen = true ∧ t.stu.polygon = .stopped ∧ t.stu.facetSync = .hunt ∧ t.stu.nominal = 100000 ∧
    t.stu.acquireLimit = 20000 ∧ t.stu.lineWaitLimit = 5000 ∧ t.ftc.state = .unregistered ∧
    t.ftc.stage = .unknown ∧ t.ftc.settleInterval = 60 ∧ t.ftc.perfTimeout = 200 ∧ t.fq.records = [] ∧
    t.fq.held = false ∧ t.lst.slots = List.replicate 40 LineSlot.empty ∧ t.lst.hold = false ∧
    t.pfm.startDelay = 64 ∧ t.pfm.rungGuard = 8 ∧ t.lmn.warmInterval = 120 ∧ t.lmn.driftLimit = 120 ∧
    ∀ c : Colour, (t.lmn.channels.get c).state = .off ∧ (t.lmn.channels.get c).refCode = 3000 ∧
      (t.pfm.lanes.get c).amplitude = 0 ∧ (t.pfm.lanes.get c).pulseOpen = false

/-- O7. Each data byte, idle symbol and bare transition restarts the break timer. A data byte in HUNT joins the
search, which drops bytes from the front, none of which begins a marker, until a marker or fewer than four bytes
stand, and drops none then; in SYNCED it is received; idle symbols are discarded, and a transition alone leaves no
byte. An input that has been brought comes at its moment where nothing waits of an earlier one; where something
does, a break 1 ms after the last transition among it, the input does not come until that has been taken.
MARKER_FOUND, where a marker with this kind and length stands first in HUNT: a length within 0..4800 takes the
link to SYNCED with those bytes the start of the first block, and the LINK condition follows; after a longer one
the search resumes at the marker's second byte and nothing is counted. What a byte does in BREAK is the model's
choice (log entry 6), and that inputs are brought in traces, and come so, is its form (log entry 2). -/
def Obligations.MarkerFoundStartsReception : Prop :=
  (∀ bs : List Byte, ∃ n, searched bs = bs.drop n ∧
    (∀ k < n, 4 ≤ (bs.drop k).length ∧ (bs.drop k).take 4 ≠ [0xC3, 0x5A, 0x96, 0x3C]) ∧
    ((searched bs).length < 4 ∨ (searched bs).take 4 = [0xC3, 0x5A, 0x96, 0x3C])) ∧
  (∀ (b : Byte) (s : State),
    (inputComes (.data b) s).lrx = { s.lrx with
      lastTransition := s.clock
      stirred := s.lrx.stirred || s.lrx.link == .broken
      buffer := match s.lrx.link with
        | .hunt => searched (s.lrx.buffer ++ [b])
        | .synced => s.lrx.buffer ++ [b]
        | .broken => if s.lrx.stirred then s.lrx.buffer ++ [b] else s.lrx.buffer } ∧
    (∀ i : Input, i = .idle ∨ i = .transition → (inputComes i s).lrx = { s.lrx with
      lastTransition := s.clock, stirred := s.lrx.stirred || s.lrx.link == .broken }) ∧
    (inputComes .quiet s).lrx = s.lrx) ∧
  (∀ (n : Nat) (i : Input) (s : State), s.sen.coming = [] →
    ((∀ x ∈ waiting s, s.clock + n * 1310720 ≤ x.1) →
      (sense [(n, i)] s).lrx = (inputComes i (advanceTo (s.clock + n * 1310720) s)).lrx ∧
      (sense [(n, i)] s).sen.coming = [] ∧ (sense [(n, i)] s).clock = s.clock + n * 1310720) ∧
    ((∃ x ∈ waiting s, x.1 < s.clock + n * 1310720) → 0 < n →
      (sense [(n, i)] s).lrx = s.lrx ∧ (sense [(n, i)] s).sen.coming = [(s.clock + n * 1310720, i)] ∧
      (sense [(n, i)] s).clock < s.clock + n * 1310720)) ∧
  ∀ (seen : Trace) (length : Nat) (kind : Byte) (rest : List Byte) (s : State),
    let e := sense seen s
    let heard := [0xC3, 0x5A, 0x96, 0x3C, kind, BitVec.ofNat 8 (length / 256), BitVec.ofNat 8 length] ++ rest
    s.lrx.link = .hunt → length < 65536 → e.lrx.buffer = heard →
    (length ≤ 4800 → ∃ t, exec (.markerFound seen kind length) s = .next t ∧
      t = observe (e.withLrx { heardBy seen s with link := .synced }) ∧ t.cpr.current.link = .synced ∧
      t.lrx.buffer = heard) ∧
    (4800 < length → exec (.markerFound seen kind length) s =
      .next (e.withLrx { heardBy seen s with buffer := searched heard.tail }))

/-- O8. In SYNCED with fewer than 3 consecutive failures: where a whole block stands first whose last four bytes are
not the CRC of its kind, length and payload, BLOCK_CRC_FAILURE discards it and adds one to the failures and to the
consecutive count; where the next four bytes are not the marker, SYNC_SLIP takes the link to HUNT, the search
beginning at the first of them; where they are, but with a length above 4800, LENGTH_ERROR does so, the search
resuming at the second. Each adds one to its counter. At 3 failures CRC_FAILURE_LIMIT takes the link to HUNT, the
search beginning behind the failed block. On entry into HUNT the consecutive count is 0, and LINK follows. -/
def Obligations.BadReceptionLosesTheLink : Prop :=
  ∀ (seen : Trace) (s : State), s.lrx.link = .synced →
    let e := sense seen s
    let l := heardBy seen s
    let lost := { l with link := .hunt, crcRun := 0 }
    (∀ (kind : Byte) (payload check rest : List Byte), s.lrx.crcRun < 3 → payload.length ≤ 4800 →
      let body := kind :: be2 payload.length ++ payload
      check.length = 4 → check ≠ be4 (crc32 body).toNat →
      e.lrx.buffer = [0xC3, 0x5A, 0x96, 0x3C] ++ body ++ check ++ rest →
      exec (.blockCrcFailure seen) s = .next (e.withLrx
        { l with crcFailures := bump32 s.lrx.crcFailures, crcRun := s.lrx.crcRun + 1, buffer := rest })) ∧
    (3 ≤ s.lrx.crcRun → exec .crcFailureLimit s = .next (observe (s.withLrx
      { s.lrx with link := .hunt, crcRun := 0, buffer := searched s.lrx.buffer }))) ∧
    (s.lrx.crcRun < 3 → 4 ≤ e.lrx.buffer.length → e.lrx.buffer.take 4 ≠ [0xC3, 0x5A, 0x96, 0x3C] →
      exec (.syncSlip seen) s = .next (observe (e.withLrx
        { lost with syncSlips := bump32 s.lrx.syncSlips, buffer := searched e.lrx.buffer }))) ∧
    (∀ (kind : Byte) (length : Nat) (rest : List Byte), s.lrx.crcRun < 3 → 4800 < length → length < 65536 →
      e.lrx.buffer = [0xC3, 0x5A, 0x96, 0x3C] ++ kind :: be2 length ++ rest →
      exec (.lengthError seen) s = .next (observe (e.withLrx
        { lost with lengthErrors := bump32 s.lrx.lengthErrors, buffer := searched e.lrx.buffer.tail })))

/-- O9. LINK_BREAK outside BREAK happens 1 ms after the last transition, a moment that time does not pass without it;
before that moment it only brings its trace and lets time pass (log entry 2). It takes the link to BREAK, adds one
to the breaks, discards the bytes heard, counts a block in reception in SYNCED as cut (in reception: its marker
and a length within 0..4800 read; where nothing heard waits for its row, not all its bytes, log entry 6), sets the
consecutive failures to 0 and signals the LINK trigger: a mask without LINK ignores it; with LINK a set latch
takes LINK among its causes, and a clear one is set with LINK alone and blanks. The first transition in BREAK is
kept, and BREAK_END takes BREAK to HUNT, the search beginning with the bytes after it. -/
def Obligations.LinkBreakAndItsEnd : Prop :=
  ∀ (seen : Trace) (s : State),
    let e := sense seen s
    let due := e.lrx.lastTransition + 131072000000
    let before := reach due e
    let inReception := s.lrx.link = .synced ∧ before.lrx.buffer.take 4 = [0xC3, 0x5A, 0x96, 0x3C] ∧
      7 ≤ before.lrx.buffer.length ∧ field before.lrx.buffer 5 2 ≤ 4800
    let l := { heardAs before s with
      link := .broken, crcRun := 0, buffer := [], stirred := false, breaks := bump32 s.lrx.breaks,
      blocksCut := if inReception then bump32 s.lrx.blocksCut else s.lrx.blocksCut }
    (s.lrx.link ≠ .broken →
      (s.lrx.lastTransition + 131072000000, some (Instr.linkBreak [])) ∈ waiting s ∧
      (before.clock < due → exec (.linkBreak seen) s = .next before) ∧
      (laneEvent before.lrx = none → s.lrx.crcRun < 3 → inReception →
        before.lrx.buffer.length < 11 + field before.lrx.buffer 5 2) ∧
      (due ≤ before.clock →
        ∃ t, exec (.linkBreak seen) s = .next t ∧ t.lrx = l ∧ t.clock = before.clock ∧ t.cpr.current.link = .broken ∧
        (s.blc.mask.getLsbD 5 = false → SameBut [.clock, .sen, .lanes, .pfm, .lrx, .cpr, .rtx] s t) ∧
        (s.blc.mask.getLsbD 5 = true → Blanked 0x20 .blanked s t ∧ CopyIsCurrent t))) ∧
    (s.lrx.link = .broken →
      (∀ i : Input, (∃ b, i = .data b) ∨ i = .idle ∨ i = .transition → (inputComes i s).lrx.stirred = true) ∧
      (e.lrx.stirred = true → ∃ t, exec (.breakEnd seen) s = .next t ∧
        t = observe (e.withLrx { heardBy seen s with
          link := .hunt, stirred := false, buffer := searched e.lrx.buffer }) ∧ t.cpr.current.link = .hunt))

/-- O10. Where a good COMMAND or TABLE block (its CRC that of R3) has arrived on a SYNCED lane with fewer than 3
consecutive failures, CONTROL_BLOCK counts a dispatched control block and joins a FIFO of fewer than 8 blocks at
its young end; with 8 it is discarded, and the control overrun counter and the CONTROL OVERRUN count rise.
UNKNOWN_KIND of a good block of a kind that is none of the five counts an unknown kind. Each sets the consecutive
failures to 0, and the next marker is expected behind the block. -/
def Obligations.GoodControlBlocksJoinTheFifo : Prop :=
  ∀ (seen : Trace) (payload rest : List Byte) (s : State),
    let e := sense seen s
    let good := { heardBy seen s with crcRun := 0, buffer := rest }
    let l := { good with controlDispatched := bump32 s.lrx.controlDispatched }
    (∀ kind : ControlKind, BlockArrived (if kind = .command then 0x20 else 0x21) payload rest e.lrx →
      (s.cpr.fifo.length < 8 → exec (.controlBlock seen kind payload) s =
        .next ((e.withLrx l).withCpr { s.cpr with fifo := s.cpr.fifo ++ [⟨kind, payload⟩] })) ∧
      (8 ≤ s.cpr.fifo.length → ∃ t, exec (.controlBlock seen kind payload) s = .next t ∧
        t.lrx = l ∧ t.cpr.fifo = s.cpr.fifo ∧ t.cpr.controlOverruns = bump16 s.cpr.controlOverruns ∧
        t.cpr.current = { s.cpr.current with controlOverrun := bump8 s.cpr.current.controlOverrun } ∧
        SameBut [.clock, .sen, .lanes, .pfm, .lrx, .cpr, .rtx] s t)) ∧
    (∀ k : Byte, k ∉ [0x10, 0x11, 0x12, 0x20, 0x21] → BlockArrived k payload rest e.lrx →
      exec (.unknownKind seen k) s =
        .next (e.withLrx { good with unknownKinds := bump32 s.lrx.unknownKinds }))

/-- O11. A good FRAME (arrived whole on a SYNCED lane, its CRC that of R3) whose fields are in range, whose line
counts sum to H, that finds fewer than 4 records and waiting reports, no record of its FSN and its slot VALID, is
accepted: one record with its fields joins the young end, WAITING, its data side PENDING (CLOSED where it has no
data lines), its counts 0, STALE_LADDER set exactly where some epoch differs; the slot's pin count rises by one;
an aborted-FSN register that holds its FSN is cleared; a dispatched stream block is counted, and the next marker
is expected behind the block. -/
def Obligations.AcceptedFrameMakesARecordAndPinsItsSlot : Prop :=
  ∀ (seen : Trace) (payload rest : List Byte) (f : FrameFields) (s : State),
    BlockArrived 0x10 payload rest (sense seen s).lrx → frameFieldsOf payload = some f →
    (f.regions.map Region.lines).sum = f.height → s.fq.records.length + s.fq.backlog.length < 4 →
    (∀ q ∈ s.fq.records, q.fsn ≠ f.fsn) → (profile s f.slot).state = .valid →
    ∃ t r, exec (.frame seen payload) s = .next t ∧
      t.fq = { s.fq with records := s.fq.records ++ [r] } ∧
      r.fsn = f.fsn ∧ r.tag = f.tag ∧ r.slot = f.slot ∧ r.width = f.width ∧ r.height = f.height ∧
      r.advance = f.advance ∧ r.startNotice = f.startNotice ∧ r.regions = f.regions ∧
      r.dataLines = ((f.regions.filter fun g => g.kind == .image).map Region.lines).sum ∧
      r.exposure = .waiting ∧ r.data = (if r.dataLines = 0 then .closed else .pending) ∧
      r.complete = 0 ∧ r.partialLines = 0 ∧ r.missing = 0 ∧ r.dataAborted = false ∧ r.excess = false ∧
      r.linesWritten = 0 ∧
      (r.staleLadder = true ↔
        ∃ c : Colour, ((profile s f.slot).plt.get c).epoch ≠ (s.lmn.channels.get c).epoch) ∧
      profile t f.slot = { profile s f.slot with pins := (profile s f.slot).pins + 1 } ∧
      (∀ n, n ≠ f.slot → profile t n = profile s n) ∧
      t.lst = { s.lst with abortedFsn := if s.lst.abortedFsn = some f.fsn then none else s.lst.abortedFsn } ∧
      t.lrx = { heardBy seen s with crcRun := 0, buffer := rest,
                                    streamDispatched := bump32 s.lrx.streamDispatched } ∧
      SameBut [.clock, .sen, .lanes, .pfm, .lrx, .pst, .fq, .lst] s t

/-- O12. A good FRAME of length 0 is counted and not answered. One whose fields cannot be taken is refused with
BAD_ARGUMENT, and one that fails a later check with LIST_SUM, QUEUE_FULL, DUPLICATE_FSN or SLOT_NOT_VALID, the
first that applies: the refused count rises, and a stream REPLY with the FSN and the reason takes a free entry, or
is dropped and counted where the occupancy is 32. No record and no slot changes. A dispatched stream block is
counted, and the next marker is expected behind the block. -/
def Obligations.RefusedFrameChangesOnlyTheCounts : Prop :=
  ∀ (seen : Trace) (payload behind : List Byte) (s : State),
    let l := { heardBy seen s with
      crcRun := 0, buffer := behind, streamDispatched := bump32 s.lrx.streamDispatched }
    BlockArrived 0x10 payload behind (sense seen s).lrx →
    (payload = [] → ∃ t, exec (.frame seen payload) s = .next t ∧
      t.fq = { s.fq with refused := bump16 s.fq.refused } ∧ t.lrx = l ∧
      SameBut [.clock, .sen, .lanes, .pfm, .lrx, .fq] s t) ∧
    ∀ (b : Byte) (rest : List Byte) (reason : Reason), payload = b :: rest →
      ((frameFieldsOf payload = none ∧ reason = .badArgument) ∨
       (∃ f, frameFieldsOf payload = some f ∧
         (((f.regions.map Region.lines).sum ≠ f.height ∧ reason = .listSum) ∨
          ((f.regions.map Region.lines).sum = f.height ∧
            ((4 ≤ s.fq.records.length + s.fq.backlog.length ∧ reason = .queueFull) ∨
             (s.fq.records.length + s.fq.backlog.length < 4 ∧
               (((∃ q ∈ s.fq.records, q.fsn = f.fsn) ∧ reason = .duplicateFsn) ∨
                ((∀ q ∈ s.fq.records, q.fsn ≠ f.fsn) ∧ (profile s f.slot).state ≠ .valid ∧
                  reason = .slotNotValid)))))))) →
      ∃ t, exec (.frame seen payload) s = .next t ∧
        t.fq = { s.fq with refused := bump16 s.fq.refused } ∧ t.lrx = l ∧
        t.rtx = (if s.rtx.entries.length < 32 then
                   { s.rtx with entries := s.rtx.entries ++ [.block (.reply
                       { stream := true, tag := b.toNat, code := 0x10, result := .refused,
                         reason := some reason, data := [] })] }
                 else { s.rtx with droppedRefusals := bump16 s.rtx.droppedRefusals }) ∧
        SameBut [.clock, .sen, .lanes, .pfm, .lrx, .fq, .rtx] s t

/-- O13. A good, well-formed LINE whose FSN is not the aborted one, for line k_cur of an OPEN record, is stored in the
line's ASSEMBLING slot, or, where it has none, in a FREE slot, of which the model takes the first (its choice, log
entry 21: R107 says only a FREE slot): its codes are set in that slot alone. With every segment present the slot
is READY, lines complete and k_cur rise by one, and the last line closes the data side; otherwise no record
changes. With neither slot it is an overrun: it is counted, LINE OVERRUN occurs and nothing else changes. One for
a line above k_cur first moves the index up to it: line k_cur is partial where it had an ASSEMBLING slot, which
becomes PARTIAL, every other line passed is missing, and the block is stored for the line at the index or is an
overrun. One for a PENDING record first closes every older record in queue order (its line at k_cur partial where
it had a slot, its other undecided lines missing), clears the aborted-FSN register and opens the record at line 0;
then the lines it passes are missing, and it is stored in a FREE slot, again the first, or is an overrun. HOLD is
asserted with 6 or fewer FREE slots, released with 10 or more, and otherwise kept. A dispatched stream block is
counted, and the next marker is expected behind the block. -/
def Obligations.LineSegmentIsStoredForTheLineAtTheIndex : Prop :=
  ∀ (seen : Trace) (payload behind : List Byte) (r : FrameRecord) (i : Nat) (old : LineSlot) (s : State),
    let f := lineFieldsOf payload
    let fresh : LineSlot :=
      { state := .assembling, fsn := some f.fsn, k := some f.k,
        segments := List.replicate (segmentsExpected r.width) none, lanesDone := .all false }
    let stored := fun (sl : LineSlot) =>
      { sl with segments := sl.segments.set f.segment (some f.codes),
                state := if (sl.segments.set f.segment (some f.codes)).all Option.isSome then .ready else sl.state }
    let full := fun (sl : LineSlot) => (sl.segments.set f.segment (some f.codes)).all Option.isSome
    let advanced := fun (whole : Bool) (k : Nat) (q : FrameRecord) =>
      if whole then { q with complete := q.complete + 1, kCur := k + 1,
                             data := if k + 1 = q.dataLines then .closed else q.data }
      else { q with kCur := k }
    let l := { heardBy seen s with
      crcRun := 0, buffer := behind, streamDispatched := bump32 s.lrx.streamDispatched }
    let follows := fun (t : State) => t.lrx = l ∧
      (freeSlots t.lst ≤ 6 → t.lst.hold = true) ∧ (10 ≤ freeSlots t.lst → t.lst.hold = false) ∧
      (6 < freeSlots t.lst → freeSlots t.lst < 10 → t.lst.hold = s.lst.hold)
    let overran := fun (t : State) => t.lrx = l ∧
      t.lst.discards = { s.lst.discards with overrun := bump32 s.lst.discards.overrun } ∧
      t.lst.hold = s.lst.hold ∧
      t.cpr.current = { s.cpr.current with lineOverrun := bump8 s.cpr.current.lineOverrun } ∧
      SameBut [.clock, .sen, .lanes, .pfm, .lrx, .fq, .lst, .cpr, .rtx] s t
    let part := fun (fsn : Nat) (sl : LineSlot) => if assembling fsn sl then { sl with state := .incomplete } else sl
    BlockArrived 0x11 payload behind (sense seen s).lrx → 6 ≤ payload.length →
    s.lst.abortedFsn ≠ some f.fsn → record f.fsn s = some r → f.k < r.dataLines →
    f.segment < segmentsExpected r.width → f.count = min 1024 (r.width - 1024 * f.segment) →
    payload.length = 6 + 9 * ((f.count + 1) / 2) →
    (r.data = .opened → f.k = r.kCur →
      (((s.lst.slots.findIdx? (assembling f.fsn) = some i ∧ s.lst.slots[i]? = some old) ∨
        (s.lst.slots.findIdx? (assembling f.fsn) = none ∧
         s.lst.slots.findIdx? (fun sl => sl.state == .free) = some i ∧ old = fresh)) →
        ∃ t, exec (.line seen payload) s = .next t ∧ t.lst.slots = s.lst.slots.set i (stored old) ∧
          t.lst.abortedFsn = s.lst.abortedFsn ∧ t.lst.discards = s.lst.discards ∧ follows t ∧
          (full old = true → t.fq = { s.fq with records := s.fq.records.map fun q =>
            if q.fsn = f.fsn then
              { q with complete := q.complete + 1, kCur := q.kCur + 1,
                       data := if q.kCur + 1 = q.dataLines then .closed else q.data }
            else q }) ∧
          (full old = false → t.fq = s.fq) ∧
          SameBut [.clock, .sen, .lanes, .pfm, .lrx, .fq, .lst] s t) ∧
      (s.lst.slots.findIdx? (assembling f.fsn) = none → (∀ sl ∈ s.lst.slots, sl.state ≠ .free) →
        ∃ t, exec (.line seen payload) s = .next t ∧ t.lst.slots = s.lst.slots ∧ t.fq = s.fq ∧ overran t ∧
          t.lst.abortedFsn = s.lst.abortedFsn)) ∧
    (r.data = .opened → r.kCur < f.k → (∀ q ∈ s.fq.records, q.fsn = f.fsn → q = r) →
      let held := if s.lst.slots.any (assembling f.fsn) then 1 else 0
      let passed := fun (q : FrameRecord) =>
        { q with partialLines := q.partialLines + held, missing := q.missing + (f.k - q.kCur - held) }
      (s.lst.slots.findIdx? (fun sl => sl.state == .free) = some i →
        ∃ t, exec (.line seen payload) s = .next t ∧
          t.lst.slots = (s.lst.slots.map (part f.fsn)).set i (stored fresh) ∧
          t.fq = { s.fq with records := s.fq.records.map fun q =>
            if q.fsn = f.fsn then advanced (full fresh) f.k (passed q) else q } ∧
          t.lst.abortedFsn = s.lst.abortedFsn ∧ t.lst.discards = s.lst.discards ∧ follows t ∧
          SameBut [.clock, .sen, .lanes, .pfm, .lrx, .fq, .lst] s t) ∧
      ((∀ sl ∈ s.lst.slots, sl.state ≠ .free) →
        ∃ t, exec (.line seen payload) s = .next t ∧ t.lst.slots = s.lst.slots.map (part f.fsn) ∧
          t.fq = { s.fq with records := s.fq.records.map fun q =>
            if q.fsn = f.fsn then { passed q with kCur := f.k } else q } ∧ overran t ∧
          t.lst.abortedFsn = s.lst.abortedFsn)) ∧
    (∀ older younger : List FrameRecord, r.data = .pending →
      s.fq.records = older ++ r :: younger → (s.fq.records.map FrameRecord.fsn).Nodup →
      s.lst.slots.any (assembling f.fsn) = false →
      let closed := fun (q : FrameRecord) =>
        let held := if q.data = .opened ∧ s.lst.slots.any (assembling q.fsn) = true then 1 else 0
        let decided := if q.data = .opened then q.kCur else 0
        if q.data = .closed then q
        else { q with
          data := .closed, kCur := q.dataLines, partialLines := q.partialLines + held,
          missing := q.missing + (q.dataLines - decided - held) }
      let slots := s.lst.slots.map fun sl =>
        if older.any (fun q => assembling q.fsn sl) then { sl with state := .incomplete } else sl
      let opened := { r with data := .opened, missing := r.missing + f.k }
      let became := fun (t : State) (q : FrameRecord) =>
        t.fq = { s.fq with records := older.map closed ++ q :: younger } ∧ t.lst.abortedFsn = none
      (s.lst.slots.findIdx? (fun sl => sl.state == .free) = some i →
        ∃ t, exec (.line seen payload) s = .next t ∧ became t (advanced (full fresh) f.k opened) ∧
          t.lst.slots = slots.set i (stored fresh) ∧ t.lst.discards = s.lst.discards ∧ follows t ∧
          SameBut [.clock, .sen, .lanes, .pfm, .lrx, .fq, .lst] s t) ∧
      ((∀ sl ∈ s.lst.slots, sl.state ≠ .free) →
        ∃ t, exec (.line seen payload) s = .next t ∧ became t { opened with kCur := f.k } ∧
          t.lst.slots = slots ∧ overran t))

/-- O14. A good LINE shorter than 6 bytes is malformed; one that carries the aborted FSN is aborted data; one without
a record is an orphan; for a record whose data side is not PENDING, one whose line number is K or more is excess
and sets EXCESS, one of wrong segment, pixel count or length is malformed, and one for a CLOSED data side or a
line below k_cur is late. Nothing but that count, and EXCESS, changes. One for a PENDING record first opens it:
older records are closed in queue order, the aborted-FSN register is cleared and k_cur is 0; where it is then
excess or malformed the opening stands. A dispatched stream block is counted, and the next marker is expected
behind the block. -/
def Obligations.DiscardedLineIsCountedUnderItsReason : Prop :=
  ∀ (seen : Trace) (payload rest : List Byte) (s : State), BlockArrived 0x11 payload rest (sense seen s).lrx →
    let f := lineFieldsOf payload
    let d := s.lst.discards
    let l := { heardBy seen s with
      crcRun := 0, buffer := rest, streamDispatched := bump32 s.lrx.streamDispatched }
    let counts := fun (d' : Discards) => ∃ t, exec (.line seen payload) s = .next t ∧
      t.lst = { s.lst with discards := d' } ∧ t.lrx = l ∧ SameBut [.clock, .sen, .lanes, .pfm, .lrx, .lst] s t
    (payload.length < 6 → counts { d with malformed := bump32 d.malformed }) ∧
    (6 ≤ payload.length →
      (s.lst.abortedFsn = some f.fsn → counts { d with abortedData := bump32 d.abortedData }) ∧
      (s.lst.abortedFsn ≠ some f.fsn →
        (record f.fsn s = none → counts { d with orphan := bump32 d.orphan }) ∧
        (∀ (r : FrameRecord) (older younger : List FrameRecord), record f.fsn s = some r → r.data = .pending →
          s.fq.records = older ++ r :: younger → (s.fq.records.map FrameRecord.fsn).Nodup →
          let closed := fun (q : FrameRecord) =>
            let held := if q.data = .opened ∧ s.lst.slots.any (assembling q.fsn) = true then 1 else 0
            let decided := if q.data = .opened then q.kCur else 0
            if q.data = .closed then q
            else { q with
              data := .closed, kCur := q.dataLines, partialLines := q.partialLines + held,
              missing := q.missing + (q.dataLines - decided - held) }
          let opens := fun (excess : Bool) (d' : Discards) => ∃ t, exec (.line seen payload) s = .next t ∧
            t.fq = { s.fq with records := older.map closed ++
              { r with data := .opened, kCur := 0, excess := excess } :: younger } ∧
            t.lst = { s.lst with
              slots := s.lst.slots.map fun sl =>
                if older.any (fun q => assembling q.fsn sl) then { sl with state := .incomplete } else sl
              abortedFsn := none, discards := d' } ∧ t.lrx = l ∧
            SameBut [.clock, .sen, .lanes, .pfm, .lrx, .lst, .fq] s t
          (r.dataLines ≤ f.k → opens true { d with excess := bump32 d.excess }) ∧
          (f.k < r.dataLines →
            ¬ (f.segment < segmentsExpected r.width ∧ f.count = min 1024 (r.width - 1024 * f.segment) ∧
              payload.length = 6 + 9 * ((f.count + 1) / 2)) →
            opens r.excess { d with malformed := bump32 d.malformed })) ∧
        ∀ r, record f.fsn s = some r → r.data ≠ .pending →
          (r.dataLines ≤ f.k → ∃ t, exec (.line seen payload) s = .next t ∧
            t.lst = { s.lst with discards := { d with excess := bump32 d.excess } } ∧
            t.fq = { s.fq with records := s.fq.records.map fun q =>
              if q.fsn = f.fsn then { q with excess := true } else q } ∧ t.lrx = l ∧
            SameBut [.clock, .sen, .lanes, .pfm, .lrx, .lst, .fq] s t) ∧
          (f.k < r.dataLines →
            let geometry := f.segment < segmentsExpected r.width ∧
              f.count = min 1024 (r.width - 1024 * f.segment) ∧
              payload.length = 6 + 9 * ((f.count + 1) / 2)
            (¬ geometry → counts { d with malformed := bump32 d.malformed }) ∧
            (geometry → (r.data = .closed ∨ f.k < r.kCur) → counts { d with late := bump32 d.late }))))

/-- O15. A good one-byte FEND for an OPEN record closes its data side: a line at k_cur with an ASSEMBLING slot is
partial and keeps its slot as PARTIAL, every other undecided line is missing, and k_cur is K. One that carries the
aborted FSN is discarded as aborted data. One for any other FSN is refused with NOT_OPEN. One of another length is
discarded as malformed. A dispatched stream block is counted, and the next marker is expected behind the block. -/
def Obligations.FendClosesTheOpenDataSide : Prop :=
  ∀ (seen : Trace) (payload rest : List Byte) (s : State), BlockArrived 0x12 payload rest (sense seen s).lrx →
    let d := s.lst.discards
    let l := { heardBy seen s with
      crcRun := 0, buffer := rest, streamDispatched := bump32 s.lrx.streamDispatched }
    (payload.length ≠ 1 → ∃ t, exec (.fend seen payload) s = .next t ∧ t.lrx = l ∧
      t.lst = { s.lst with discards := { d with malformed := bump32 d.malformed } } ∧
      SameBut [.clock, .sen, .lanes, .pfm, .lrx, .lst] s t) ∧
    ∀ b : Byte, payload = [b] →
      let fsn := b.toNat
      (s.lst.abortedFsn = some fsn → ∃ t, exec (.fend seen payload) s = .next t ∧ t.lrx = l ∧
        t.lst = { s.lst with discards := { d with abortedData := bump32 d.abortedData } } ∧
        SameBut [.clock, .sen, .lanes, .pfm, .lrx, .lst] s t) ∧
      (s.lst.abortedFsn ≠ some fsn →
        (∀ r, record fsn s = some r → r.data = .opened →
          (∀ q ∈ s.fq.records, q.fsn = fsn → q = r) →
          let held := if s.lst.slots.any (assembling fsn) then 1 else 0
          ∃ t, exec (.fend seen payload) s = .next t ∧ t.lrx = l ∧
            t.fq = { s.fq with records := s.fq.records.map fun q =>
              if q.fsn = fsn then
                { q with data := .closed, kCur := q.dataLines, partialLines := q.partialLines + held,
                         missing := q.missing + (q.dataLines - q.kCur - held) }
              else q } ∧
            t.lst = { s.lst with
              slots := s.lst.slots.map fun sl =>
                if assembling fsn sl then { sl with state := .incomplete } else sl } ∧
            SameBut [.clock, .sen, .lanes, .pfm, .lrx, .lst, .fq] s t) ∧
        ((∀ r, record fsn s = some r → r.data ≠ .opened) → ∃ t, exec (.fend seen payload) s = .next t ∧ t.lrx = l ∧
          t.fq = { s.fq with refused := bump16 s.fq.refused } ∧
          t.rtx = (if s.rtx.entries.length < 32 then
                     { s.rtx with entries := s.rtx.entries ++ [.block (.reply
                         { stream := true, tag := fsn, code := 0x12, result := .refused,
                           reason := some .notOpen, data := [] })] }
                   else { s.rtx with droppedRefusals := bump16 s.rtx.droppedRefusals }) ∧
          SameBut [.clock, .sen, .lanes, .pfm, .lrx, .fq, .rtx] s t))

/-- O16. When execution may begin: a COMMAND of fewer than 3 bytes, and a TABLE block that meets no session or a
session of another kind, leave the FIFO without an answer, their reserved entry is released, the control error
counter rises by one and CONTROL ERROR occurs. A COMMAND whose code names no command is answered REFUSED with
BAD_ARGUMENT, its tag and its code as received, and nothing else changes. So is each of the 27 commands with
another number of argument bytes than its layout has, BLANK RESUME's answer with its three bytes of data (its last
byte, and that RESET UNIT is so answered, are the model's, log entries 12 and 31). -/
def Obligations.BlocksWithoutAnAnswerAndUnknownCodes : Prop :=
  ∀ (payload : List Byte) (rest : List ControlBlock) (s : State),
    s.cpr.executing = none → s.rtx.entries.length ≤ 23 → OutEntry.reserved ∉ s.rtx.entries →
    let e := takenSilently s
    let failed := e.withCpr { e.cpr with controlErrors := bump16 s.cpr.controlErrors }
    let discarded := fun (c : Instr) => ∃ t, exec c s = .next t ∧ Noticed failed t ∧
      t.cpr.current = { s.cpr.current with controlError := bump8 s.cpr.current.controlError } ∧
      OutEntry.reserved ∉ t.rtx.entries ∧ t.rtx.entries.length ≤ s.rtx.entries.length + 1 ∧
      SameBut [.cpr, .rtx] s t
    (s.cpr.fifo = ⟨.command, payload⟩ :: rest → payload.length < 3 → discarded .shortCommand) ∧
    (s.cpr.fifo = ⟨.table, payload⟩ :: rest →
      (∀ ses k bytes, s.pst.session = some ses → payload = k :: bytes → tableKindOf k.toNat ≠ some ses.kind) →
      discarded .tableBlock) ∧
    (∀ (t1 t0 code : Byte) (args : List Byte), s.cpr.fifo = ⟨.command, t1 :: t0 :: code :: args⟩ :: rest →
      code.toNat ∉ commandCodes →
      exec .unknownCommand s =
        .next (answeredWith (t1.toNat * 256 + t0.toNat) code.toNat (refused .badArgument) s)) ∧
    (∀ (tag code n : Nat) (c : Instr) (args : List Byte), CommandReady tag code args s → args.length ≠ n →
      (code, n, c) ∈
        [(0x01, 0, Instr.identify), (0x02, 0, .readStatus), (0x03, 2, .clearStatus), (0x04, 0, .resetUnit),
         (0x10, 4, .tableOpen), (0x11, 0, .tableClose), (0x12, 1, .readSlot), (0x18, 6, .setTrim),
         (0x20, 1, .abortFrame), (0x21, 0, .flushQueue), (0x22, 0, .releaseQueue), (0x28, 0, .polygonStart),
         (0x29, 0, .polygonStop), (0x2A, 6, .setPolygon), (0x2B, 9, .setFacets), (0x2C, 3, .setLineGeometry),
         (0x2D, 2, .setLineWait), (0x30, 6, .setPulseGeometry), (0x38, 1, .laserOn), (0x39, 1, .laserOff),
         (0x3A, 16, .setLaserSetup), (0x3B, 1, .measureLadder), (0x40, 1, .advance), (0x41, 0, .transportClear),
         (0x42, 4, .setTransport), (0x49, 1, .setBlankSources)] →
      exec c s = .next (answeredWith tag code (refused .badArgument) s)) ∧
    (∀ (tag : Nat) (args : List Byte), CommandReady tag 0x48 args s → args ≠ [] →
      exec .blankResume s = .next (answeredWith tag 0x48 ⟨.refused, some .badArgument,
        be1 (if s.blc.latch then 0 else 1) ++ be1 s.blc.causes.toNat ++ [0x00]⟩ s))

/-- O17. IDENTIFY is answered OK with part code 0x4130, revision letter B, the reset cause and the six capacities 2,
4, 40, 10, 4096 and 3200, and changes no state but its own execution's. The reset cause is POWER after POWER_ON
and COMMAND after RESET_UNIT, and no other command changes it. (The byte that encodes the cause, resetCauseCode,
is the model's choice: log entry 33.) -/
def Obligations.IdentifyGivesCodeRevisionCauseAndCapacities : Prop :=
  (∀ (tag : Nat) (s : State), CommandReady tag 0x01 [] s →
    exec .identify s = .next (answeredWith tag 0x01 (accepted
      ([0x41, 0x30, 0x42] ++ be1 (resetCauseCode s.cpr.resetCause) ++ be2 2 ++ be2 4 ++ be2 40 ++ be2 10 ++
       be2 4096 ++ be2 3200)) s)) ∧
  (∀ s : State, ∃ t, exec .powerOn s = .next t ∧ t.cpr.resetCause = .power) ∧
  (∀ (tag : Nat) (s : State), CommandReady tag 0x04 [] s →
    ∃ t, exec .resetUnit s = .next t ∧ t.cpr.resetCause = .command) ∧
  (∀ (c : Instr) (s t : State), c ≠ .powerOn → c ≠ .resetUnit → exec c s = .next t →
    t.cpr.resetCause = s.cpr.resetCause)

/-- O18. READ STATUS is answered OK with the conditions, latch flags and reported values, the link state and its eight
counters, the dropped refusals, the occupancy with its own reserved entry, the blocks waiting in the FIFO without
itself, the control counters, the refusals and discards, every record oldest first, the backlog, the FREE slots
and HOLD. READ SLOT gives a slot's summary, with 0 for absent curves and ladders, and refuses a slot above 1.
Neither changes anything else. Data widths not fixed by Chapter 12, the one byte of the kinds present among them,
are the model's, and so is the byte of the acquire-fault flag, 1 for set (log entry 12). -/
def Obligations.ReadingCommandsAnswerAndChangeNothing : Prop :=
  (∀ (tag : Nat) (s : State), CommandReady tag 0x02 [] s →
    exec .readStatus s = .next (answeredWith tag 0x02 (accepted
      (conditionBytes s.cpr.current ++ be2 s.cpr.latch.toNat ++ conditionBytes s.cpr.reported ++
       be1 (linkCode s.lrx.link) ++ be4 s.lrx.streamDispatched ++ be4 s.lrx.controlDispatched ++
       be4 s.lrx.crcFailures ++ be4 s.lrx.syncSlips ++ be4 s.lrx.lengthErrors ++ be4 s.lrx.unknownKinds ++
       be4 s.lrx.breaks ++ be4 s.lrx.blocksCut ++
       be2 s.rtx.droppedRefusals ++ be2 (s.rtx.entries.length + 1) ++ be2 1 ++ be2 (s.cpr.fifo.length - 1) ++
       be2 s.cpr.controlOverruns ++ be2 s.cpr.controlErrors ++ be2 s.fq.refused ++
       be4 s.lst.discards.orphan ++ be4 s.lst.discards.abortedData ++ be4 s.lst.discards.excess ++
       be4 s.lst.discards.malformed ++ be4 s.lst.discards.late ++ be4 s.lst.discards.overrun ++
       be2 s.fq.records.length ++
       (s.fq.records.flatMap fun r => be1 r.fsn ++ be1 (exposureCode r.exposure) ++ be1 (dataCode r.data) ++
         be2 (if r.data = .pending then 0 else if r.data = .opened then r.kCur else r.dataLines)) ++
       be2 s.fq.backlog.length ++ be2 (freeSlots s.lst) ++ beBool s.lst.hold)) s)) ∧
  (∀ (tag : Nat) (b : Byte) (s : State), CommandReady tag 0x12 [b] s →
    (2 ≤ b.toNat → exec .readSlot s = .next (answeredWith tag 0x12 (refused .badArgument) s)) ∧
    ∀ n : Fin 2, b.toNat = n.val →
      let p := profile s n
      let ladder := fun (l : Ladder) =>
        if p.kinds.plt then be2 l.rungs.length ++ beSigned l.stamp ++ be2 l.epoch else List.replicate 6 0x00
      exec .readSlot s = .next (answeredWith tag 0x12 (accepted
        (be1 (slotStateCode p.state) ++ be1 (kindsCode p.kinds) ++ be2 p.pins ++
         be2 (if p.kinds.sct then p.sct.red.length else 0) ++
         be2 (if p.kinds.sct then p.sct.green.length else 0) ++
         be2 (if p.kinds.sct then p.sct.blue.length else 0) ++
         ladder p.plt.red ++ ladder p.plt.green ++ ladder p.plt.blue)) s))

/-- O19. CLEAR STATUS of a set within 13 bits clears the named latch flags, takes from each named event count what its
reported value showed, sets that reported count to 0, and compares each named condition's current and reported
values. Where some differ their latch flags are set, whether they were set before or clear (log entry 37), and one
NOTICE names them: at the young end behind the REPLY where no notice is pending; in the entry of one that is
pending there, or with one that waits and goes on waiting, with the union of the changed sets. Where none differs
no NOTICE is produced. What is not named is kept. A set with a bit above 12 is refused with BAD_ARGUMENT. That a
condition is compared as a whole value is the model's reading (log entry 20), and so are the latch flags that the
NOTICE shows (log entry 10); that the NOTICE takes a free entry also where a REPORT waits is its choice (log entry
40). -/
def Obligations.ClearStatusAcknowledgesAndSendsAgain : Prop :=
  ∀ (tag : Nat) (b1 b0 : Byte) (s : State), CommandReady tag 0x03 [b1, b0] s →
    let n := b1.toNat * 256 + b0.toNat
    let set : CondSet := BitVec.ofNat 13 n
    let left := fun (c : Condition) (now shown : Nat) => if condIn set c then now - shown else now
    let kept := fun (c : Condition) (shown : Nat) => if condIn set c then 0 else shown
    let s1 := answeredWith tag 0x03 (accepted []) s
    (8192 ≤ n → exec .clearStatus s = .next (answeredWith tag 0x03 (refused .badArgument) s)) ∧
    (n < 8192 → ∃ t, exec .clearStatus s = .next t ∧ Noticed
        (s1.withCpr { s1.cpr with reported :=
          { s.cpr.reported with
            lineOverrun := kept .lineOverrun s.cpr.reported.lineOverrun
            controlOverrun := kept .controlOverrun s.cpr.reported.controlOverrun
            controlError := kept .controlError s.cpr.reported.controlError
            frameStarted := kept .frameStarted s.cpr.reported.frameStarted } }) t ∧
      t.cpr.current =
        { s.cpr.current with
          lineOverrun := left .lineOverrun s.cpr.current.lineOverrun s.cpr.reported.lineOverrun
          controlOverrun := left .controlOverrun s.cpr.current.controlOverrun s.cpr.reported.controlOverrun
          controlError := left .controlError s.cpr.current.controlError s.cpr.reported.controlError
          frameStarted := left .frameStarted s.cpr.current.frameStarted s.cpr.reported.frameStarted } ∧
      (let differ := condSet fun c => condIn set c && condDiffers t.cpr.current t.cpr.reported c
       t.cpr.latch = (s.cpr.latch &&& ~~~set) ||| differ ∧
       (differ = 0 → t.rtx = s1.rtx ∧ t.cpr.waitingNotice = s.cpr.waitingNotice) ∧
       (differ ≠ 0 → (unsent s.rtx).any isNotice = false → s.cpr.waitingNotice = none →
         t.cpr.waitingNotice = none ∧ t.rtx.entries = s1.rtx.entries ++
           [.block (.notice { changed := differ, latch := t.cpr.latch, values := t.cpr.current })]) ∧
       (∀ old : Notice, differ ≠ 0 → (unsent s.rtx).any isNotice = false → s.cpr.waitingNotice = some old →
         t.rtx = s1.rtx ∧ t.cpr.waitingNotice = some
           { changed := old.changed ||| differ, latch := t.cpr.latch, values := t.cpr.current }) ∧
       (∀ (sent a b : List OutEntry) (old : Notice), differ ≠ 0 →
         s.rtx.entries = sent ++ a ++ .block (.notice old) :: b →
         sent.length = (if s.rtx.sending = true then 1 else 0) → a.any isNotice = false → b.any isNotice = false →
         t.cpr.waitingNotice = s.cpr.waitingNotice ∧
         t.rtx.entries = sent ++ a ++ .block (.notice
             { changed := old.changed ||| differ, latch := t.cpr.latch, values := t.cpr.current }) ::
           (b ++ [.block (.reply { stream := false, tag := tag, code := 0x03, result := .ok, reason := none,
                                   data := [] })]))) ∧
      SameBut [.cpr, .rtx] s t)

/-- O20. RESET UNIT keeps only the block being sent, then queues its REPLY and one NOTICE of what differs from the
reported values. FIFO, records, backlog, session, line slots and measurement are emptied; event counts and latch
flags are cleared before the NOTICE sets those it names; the blank latch is set with cause RESET alone and every
output is dark; an advance is lost and the stage homes; tables, trims, geometry, polygon, channels, mask, the
transport's intervals, link and counters are kept; a session's slot goes EMPTY or INCOMPLETE by its kinds, a
MEASURING one back to its prior state, and any other keeps its state, so that a compile goes on; a transport that
is neither ADVANCING nor SETTLING keeps its state, fault cause, pins and motor; the reset cause is COMMAND. The
latch flags set with the NOTICE are the model's reading (log entry 10); argument bytes make the command refused
instead (log entry 31). -/
def Obligations.ResetUnitEmptiesTheFrameMachinery : Prop :=
  (∀ (tag : Nat) (args : List Byte) (s : State), CommandReady tag 0x04 args s → args ≠ [] →
    exec .resetUnit s = .next (answeredWith tag 0x04 (refused .badArgument) s)) ∧
  ∀ (tag : Nat) (s : State), CommandReady tag 0x04 [] s → (s.rtx.sending = true → s.rtx.entries ≠ []) →
    ∃ t, exec .resetUnit s = .next t ∧ SameBut [.free, .cpr, .rtx, .pst, .fq, .lst, .lanes, .stu, .pfm, .lmn, .blc, .ftc] s t ∧
      (let differ := condSet (condDiffers t.cpr.current s.cpr.reported)
       t.cpr = { s.cpr with
         fifo := [], executing := none, loadPointer := none, resetCause := .command, latch := differ,
         current := t.cpr.current, waitingNotice := none } ∧
       t.rtx = { s.rtx with entries := (if s.rtx.sending then s.rtx.entries.take 1 else []) ++
         [.block (.reply { stream := false, tag := tag, code := 0x04, result := .ok, reason := none, data := [] }),
          .block (.notice { changed := differ, latch := differ, values := t.cpr.current })] }) ∧
      t.cpr.current = { ownerValues t with
        lineOverrun := 0, controlOverrun := 0, controlError := 0, frameStarted := 0, startedFsn := none } ∧
      t.fq = { s.fq with records := [], backlog := [], held := false } ∧
      t.lst = { s.lst with slots := List.replicate 40 LineSlot.empty, hold := false, abortedFsn := none } ∧
      t.blc = { s.blc with latch := true, causes := 0x80 } ∧
      t.stu = { s.stu with lineWait := none, scanCounter := 0, slips := ⟨0, 0, 0, 0, 0⟩, writing := none } ∧
      t.pst.session = none ∧ t.pfm.line = none ∧ t.pfm.request = none ∧
      t.pfm.startDelayPending = s.pfm.startDelayPending ∧ t.pfm.startDelay = s.pfm.startDelay ∧
      t.pfm.rungGuardPending = s.pfm.rungGuardPending ∧ t.pfm.rungGuard = s.pfm.rungGuard ∧
      (∀ n : Fin 2, (profile t n).pins = 0 ∧ (profile t n).kinds = (profile s n).kinds ∧
        (profile t n).cdt = (profile s n).cdt ∧ (profile t n).sct = (profile s n).sct ∧
        (profile t n).plt = (profile s n).plt ∧ (profile t n).compiled = (profile s n).compiled ∧
        (profile t n).compiledCurrent = (profile s n).compiledCurrent ∧
        (profile t n).compileEnds = (profile s n).compileEnds ∧
        (let loaded := ∃ ses, s.pst.session = some ses ∧ ses.slot = n
         let measured := ∃ m, s.lmn.measurement = some m ∧ m.slot = n
         let kinds := (profile s n).kinds
         (loaded → ¬ measured → (profile t n).prior = (profile s n).prior ∧
           (kinds = ⟨false, false, false⟩ → (profile t n).state = .empty) ∧
           (kinds ≠ ⟨false, false, false⟩ → kinds ≠ ⟨true, true, true⟩ → (profile t n).state = .incomplete)) ∧
         (measured → ∀ prior, (profile s n).prior = some prior → (profile t n).prior = none ∧
           (profile t n).state = match prior with | .valid => .valid | .incomplete => .incomplete) ∧
         (¬ loaded → ¬ measured →
           (profile t n).state = (profile s n).state ∧ (profile t n).prior = (profile s n).prior))) ∧
      t.lmn.measurement = none ∧ t.lmn.retraceCount = 0 ∧ t.lmn.warmInterval = s.lmn.warmInterval ∧
      t.lmn.driftLimit = s.lmn.driftLimit ∧
      (∀ m, s.lmn.measurement = some m → t.lmn.value = .result .abandoned m.slot) ∧
      (s.lmn.measurement = none → t.lmn.value = s.lmn.value) ∧
      (∀ c : Colour,
        t.lanes.get c = { s.lanes.get c with
          offset := 0, densityClips := 0, powerClips := 0, floorClamps := 0, source := .dark, holdBuffer := [] } ∧
        t.pfm.lanes.get c = { s.pfm.lanes.get c with
          rung := none, amplitude := 0, pulseOpen := false, pulse := none, truncations := 0 } ∧
        t.lmn.channels.get c = { s.lmn.channels.get c with accCount := 0, accSum := 0 }) ∧
      (let f := if s.ftc.state = .advancing ∨ s.ftc.state = .settling then
           { s.ftc with
             state := .unregistered, phase := none, origin := none, counter := 0, perfTimer := none,
             settleTimer := none, motor := false, pinsIn := false }
         else s.ftc
       (s.ftc.stage = .idle ∨ s.ftc.stage = .unknown → (∃ x, t.ftc = { f with
           stage := .homing, position := some x, stageTimer := some (timebase s), homeWaiting := false }) ∧
         (∀ x, s.ftc.position = some x → t.ftc.position = some x ∧ t.free = s.free) ∧
         (s.ftc.position = none → t.free = s.free + 1)) ∧
       (s.ftc.stage = .stepping → t.ftc = { f with homeWaiting := true } ∧ t.free = s.free) ∧
       (s.ftc.stage = .homing → t.ftc = f ∧ t.free = s.free))

/-- O21. A slot or kind that names nothing is refused with BAD_ARGUMENT, a COMPILING or MEASURING slot with BUSY, a
pinned one with SLOT_PINNED. Otherwise any open session is abandoned, the kind is taken from the slot's kinds
present, its content starts as its kind's rule says, compiled current becomes no for a CDT or SCT, the slot is
LOADING, the session's counts are 0 and the load pointer is the limited start index for a CDT and 0 otherwise. The
answer names the session, and the one abandoned with its entries written (two bytes that hold at 65,535: log entry
12). -/
def Obligations.TableOpenOpensASessionOrRefuses : Prop :=
  ∀ (tag : Nat) (a b i1 i0 : Byte) (s : State), CommandReady tag 0x10 [a, b, i1, i0] s →
    let turnedAway := fun (r : Reason) => exec .tableOpen s = .next (answeredWith tag 0x10 (refused r) s)
    (slotOf a.toNat = none ∨ tableKindOf b.toNat = none → turnedAway .badArgument) ∧
    ∀ (n : Fin 2) (kind : TableKind), slotOf a.toNat = some n → tableKindOf b.toNat = some kind →
      let p := profile s n
      let given := i1.toNat * 256 + i0.toNat
      let start := if kind = .cdt then min given 12287 else 0
      let s1 := answeredWith tag 0x10 (carriedOut (decide (given ≤ 12287))
        (be1 n.val ++ be1 (tableKindCode kind) ++ be2 start ++
         match s.pst.session with
         | none => []
         | some old => be1 old.slot.val ++ be1 (tableKindCode old.kind) ++ be2 (min 65535 old.written))) s
      (p.state = .compiling ∨ p.state = .measuring → turnedAway .busy) ∧
      (p.state ≠ .compiling → p.state ≠ .measuring → 0 < p.pins → turnedAway .slotPinned) ∧
      (p.state ≠ .compiling → p.state ≠ .measuring → p.pins = 0 → ∃ t, exec .tableOpen s = .next t ∧
        t.cpr = { s1.cpr with loadPointer := some start } ∧ t.rtx = s1.rtx ∧
        t.pst.session = some ⟨n, kind, 0, 0, 0, 0⟩ ∧
        (profile t n).state = .loading ∧ (profile t n).kinds = withKind p.kinds kind false ∧
        (profile t n).pins = 0 ∧ (profile t n).compiled = p.compiled ∧
        (profile t n).compileEnds = p.compileEnds ∧
        (profile t n).compiledCurrent = (p.compiledCurrent && kind == .plt) ∧
        (profile t n).cdt = (if kind = .cdt ∧ p.kinds.cdt = false then [] else p.cdt) ∧
        (profile t n).sct = (if kind = .sct then .all [] else p.sct) ∧
        (∀ c : Colour, (profile t n).plt.get c =
          { p.plt.get c with rungs := if kind = .plt then [] else (p.plt.get c).rungs }) ∧
        (∀ m : Fin 2, m ≠ n →
          (∀ old, s.pst.session = some old → old.slot = m → profile t m = settle (profile s m)) ∧
          ((∀ old, s.pst.session = some old → old.slot ≠ m) → profile t m = profile s m)) ∧
        SameBut [.cpr, .rtx, .pst] s t)

/-- O22. With a CDT session open, a TABLE block of densities writes them from the load pointer on, each held to 5000,
up to index 12,287, moves the pointer past those written and counts entries written, discarded past capacity and
clamped; every other index keeps its density. With an SCT or PLT session open, its entries are taken in order: one
of a bad colour is counted so; the others join the ends of their colours' lists, their values held to 5000 and
4095 or to 4095 and 4095, until the pointer reaches 192 or 48, and are past capacity from there on. Bytes left
over that make no whole entry are a control error: the counter rises, CONTROL ERROR occurs, and the entries before
them stay written. The block is not answered and nothing else changes. -/
def Obligations.TableBlockWritesItsEntries : Prop :=
  ∀ (rest : List ControlBlock) (ses : Session) (p : Nat) (tail : List Byte) (s : State),
    s.cpr.executing = none → s.rtx.entries.length ≤ 23 → OutEntry.reserved ∉ s.rtx.entries →
    s.pst.session = some ses → s.cpr.loadPointer = some p →
    let frame := fun (t : State) (pointer : Nat) =>
      (tail = [] → t.rtx = s.rtx ∧
        t.cpr = { s.cpr with fifo := rest, executing := none, loadPointer := some pointer }) ∧
      (tail ≠ [] →
        t.cpr.current = { s.cpr.current with controlError := bump8 s.cpr.current.controlError } ∧
        Noticed (s.withCpr { s.cpr with
          fifo := rest, executing := none, loadPointer := some pointer,
          controlErrors := bump16 s.cpr.controlErrors }) t) ∧
      (∀ n : Fin 2, n ≠ ses.slot → profile t n = profile s n) ∧ SameBut [.cpr, .rtx, .pst] s t
    (∀ ds : List Nat, (∀ d ∈ ds, d < 65536) → tail.length < 2 →
      s.cpr.fifo = ⟨.table, 0x00 :: ds.flatMap be2 ++ tail⟩ :: rest →
      ses.kind = .cdt → p ≤ 12288 → tableWf 0 (profile s ses.slot).cdt = true →
      let fits := min ds.length (12288 - p)
      ∃ t, exec .tableBlock s = .next t ∧ frame t (p + fits) ∧
        t.pst.session = some { ses with
          written := ses.written + fits, pastCapacity := ses.pastCapacity + (ds.length - fits),
          clamped := ses.clamped + (ds.take fits).countP fun d => decide (5000 < d) } ∧
        profile t ses.slot = { profile s ses.slot with cdt := (profile t ses.slot).cdt } ∧
        ∀ i : Nat, tableRead 0 (profile t ses.slot).cdt i =
          if p ≤ i ∧ i < p + fits then min ((ds[i - p]?).getD 0) 5000
          else tableRead 0 (profile s ses.slot).cdt i) ∧
    (∀ es : List (Byte × Nat × Nat), (∀ e ∈ es, e.2.1 < 65536 ∧ e.2.2 < 65536) → tail.length < 5 →
      let bytes := es.flatMap (fun e => e.1 :: be2 e.2.1 ++ be2 e.2.2) ++ tail
      let named := es.filter fun e => decide (e.1.toNat ≤ 2)
      let loads := fun (capacity lim : Nat) (t : State) =>
        let taken := named.take (capacity - p)
        frame t (p + taken.length) ∧
        t.pst.session = some { ses with
          written := ses.written + taken.length
          pastCapacity := ses.pastCapacity + (named.length - taken.length)
          badColour := ses.badColour + (es.length - named.length)
          clamped := ses.clamped + taken.countP fun e => decide (lim < e.2.1 ∨ 4095 < e.2.2) }
      let ofColour := fun (capacity : Nat) (c : Colour) =>
        (named.take (capacity - p)).filter fun e => decide (e.1.toNat = colourCode c)
      (s.cpr.fifo = ⟨.table, 0x01 :: bytes⟩ :: rest → ses.kind = .sct →
        ∃ t, exec .tableBlock s = .next t ∧ loads 192 5000 t ∧
          let points := fun (c : Colour) => (ofColour 192 c).map fun e => CurvePoint.mk (min e.2.1 5000) (min e.2.2 4095)
          profile t ses.slot = { profile s ses.slot with
            sct := .of fun c => (profile s ses.slot).sct.get c ++ points c }) ∧
      (s.cpr.fifo = ⟨.table, 0x02 :: bytes⟩ :: rest → ses.kind = .plt →
        ∃ t, exec .tableBlock s = .next t ∧ loads 48 4095 t ∧
          let old := (profile s ses.slot).plt
          let rungs := fun (c : Colour) => (ofColour 48 c).map fun e => Rung.mk (min e.2.1 4095) (min e.2.2 4095)
          profile t ses.slot = { profile s ses.slot with
            plt := .of fun c => { old.get c with rungs := (old.get c).rungs ++ rungs c } }))

/-- O23. With no session TABLE CLOSE is refused with NO_SESSION. Otherwise the kind is validated: a curve has 2..64
points, strictly increasing in density and exposure; a ladder 2..16 rungs, powers strictly decreasing by at most
300 mL. When every colour passes, the answer is OK or CLAMPED, the kind joins the kinds present, and a ladder
takes each colour's drift and epoch. When some colour fails the answer is a failure result naming the first such
colour, and kinds and ladders stay. An ORDER failure is an adjacent pair that does not decrease, a SPACING failure
one that decreases by more than 300 mL, and the first such pair decides. The state follows from the kinds, and the
session is closed; a slot that goes COMPILING compiles from that moment and ends within 2 ms, after a free number
of counts (log entry 27). That the counts are two bytes each, holding at 65,535, and the failing colour the last
byte, is the model's choice (log entry 12). -/
def Obligations.TableCloseValidatesAndSetsTheSlot : Prop :=
  ∀ (tag : Nat) (s : State), CommandReady tag 0x11 [] s →
    (s.pst.session = none → exec .tableClose s = .next (answeredWith tag 0x11 (refused .noSession) s)) ∧
    ∀ ses : Session, s.pst.session = some ses →
      let p := profile s ses.slot
      let counted := fun (c : Colour) =>
        (ses.kind = .sct → 2 ≤ (p.sct.get c).length ∧ (p.sct.get c).length ≤ 64) ∧
        (ses.kind = .plt → 2 ≤ (p.plt.get c).rungs.length ∧ (p.plt.get c).rungs.length ≤ 16)
      let ordered := fun (c : Colour) =>
        (ses.kind = .sct →
          (p.sct.get c).Pairwise fun x y => x.density < y.density ∧ x.exposure < y.exposure) ∧
        (ses.kind = .plt → ∀ (r : Nat) (x y : Rung), (p.plt.get c).rungs[r]? = some x →
          (p.plt.get c).rungs[r + 1]? = some y → y.power < x.power ∧ x.power - y.power ≤ 300)
      let before := fun (c : Colour) => match c with
        | .red => ([] : List Colour) | .green => [.red] | .blue => [.red, .green]
      ∃ t result tail, exec .tableClose s = .next t ∧
        t = (((answeredWith tag 0x11 ⟨result, none,
              be1 ses.slot.val ++ be1 (tableKindCode ses.kind) ++ be2 (min 65535 ses.written) ++
              be2 (min 65535 ses.pastCapacity) ++ be2 (min 65535 ses.badColour) ++ be2 (min 65535 ses.clamped) ++
              be1 (slotStateCode (profile t ses.slot).state) ++ tail⟩ s).withPst t.pst).withFree t.free).withCpr
            { s.cpr with fifo := s.cpr.fifo.tail, executing := none, loadPointer := none } ∧
        t.pst.session = none ∧ (∀ n : Fin 2, n ≠ ses.slot → profile t n = profile s n) ∧
        ((∀ c, counted c ∧ ordered c) →
          result = (if ses.clamped = 0 then .ok else .clamped) ∧ tail = [] ∧
          (profile t ses.slot).kinds = withKind p.kinds ses.kind true ∧
          ∀ c : Colour, (profile t ses.slot).plt.get c =
            if ses.kind = .plt then
              { p.plt.get c with stamp := (s.lmn.channels.get c).drift, epoch := (s.lmn.channels.get c).epoch }
            else p.plt.get c) ∧
        (∀ c : Colour, (∀ e ∈ before c, counted e ∧ ordered e) → ¬ (counted c ∧ ordered c) →
          tail = be1 (colourCode c) ∧ (profile t ses.slot).kinds = p.kinds ∧
          (profile t ses.slot).plt = p.plt ∧
          (ses.kind = .sct → result = if (2 ≤ (p.sct.get c).length ∧ (p.sct.get c).length ≤ 64) then .curveOrder
                                      else .curveCount) ∧
          (ses.kind = .plt → ¬ counted c → result = .ladderCount) ∧
          (ses.kind = .plt → counted c → ∀ (r : Nat) (x y : Rung),
            (p.plt.get c).rungs[r]? = some x → (p.plt.get c).rungs[r + 1]? = some y →
            (∀ (i : Nat) (v w : Rung), i < r → (p.plt.get c).rungs[i]? = some v →
              (p.plt.get c).rungs[i + 1]? = some w → w.power < v.power ∧ v.power - w.power ≤ 300) →
            (x.power ≤ y.power → result = .ladderOrder) ∧
            (y.power < x.power → 300 < x.power - y.power → result = .ladderSpacing))) ∧
        (profile t ses.slot).cdt = p.cdt ∧ (profile t ses.slot).sct = p.sct ∧
        (profile t ses.slot).compiledCurrent = p.compiledCurrent ∧ (profile t ses.slot).pins = p.pins ∧
        ((profile t ses.slot).state = .compiling → t.free = s.free + 1 ∧
          ∃ n ≤ 200000, (profile t ses.slot).compileEnds = some (s.clock + n * 1310720)) ∧
        ((profile t ses.slot).state ≠ .compiling → t.free = s.free ∧
          (profile t ses.slot).compileEnds = p.compileEnds) ∧
        (let k := (profile t ses.slot).kinds
         (profile t ses.slot).state =
           if k = ⟨false, false, false⟩ then .empty
           else if k = ⟨true, true, true⟩ then (if p.compiledCurrent then .valid else .compiling)
           else .incomplete)

/-- O24. COMPILE_END on a COMPILING slot comes at the moment held for its end (log entry 27), which time does not pass
without it (log entry 2); it makes the slot VALID with compiled current yes. For each colour with an increasing
curve and each code value, with D its CDT density: at or below D_0 the entry is BASE; between D_k and D_{k+1} it
is L_k plus n/m rounded half up, the flag clear; above D_last it is L_last with the clip flag set. Nothing else of
the slot changes, and the other slot does not. -/
def Obligations.CompileEndFillsTheCompiledTables : Prop :=
  ∀ (seen : Trace) (n : Fin 2) (ends : Nat) (s : State),
    (profile s n).state = .compiling → (profile s n).compileEnds = some ends →
    let before := reach ends (sense seen s)
    (ends, some (Instr.compileEnd [] n)) ∈ waiting s ∧
    (before.clock < ends → exec (.compileEnd seen n) s = .next before) ∧
    (ends ≤ before.clock → ∃ t, exec (.compileEnd seen n) s = .next t ∧ Came before s t ∧
      profile t n = { profile s n with
        compiled := (profile t n).compiled, compiledCurrent := true, state := .valid, compileEnds := none } ∧
      (∀ m : Fin 2, m ≠ n → profile t m = profile s m) ∧ t.pst.session = s.pst.session ∧
      SameBut [.clock, .sen, .lanes, .pfm, .lrx, .pst] s t ∧
      ∀ (c : Colour) (cv : Nat), cv < 4096 →
        let curve := (profile s n).sct.get c
        let d := tableRead 0 (profile s n).cdt (4096 * colourCode c + cv)
        let entry := tableRead .base ((profile t n).compiled.get c) cv
        curve.Pairwise (fun x y => x.density < y.density ∧ x.exposure < y.exposure) →
        (∀ p0, curve.head? = some p0 → d ≤ p0.density → entry = .base) ∧
        (∀ (k : Nat) (x y : CurvePoint), curve[k]? = some x → curve[k + 1]? = some y →
          x.density < d → d ≤ y.density →
          entry = .level (x.exposure +
            (2 * ((d - x.density) * (y.exposure - x.exposure)) + (y.density - x.density)) /
              (2 * (y.density - x.density))) false) ∧
        (∀ last, curve.getLast? = some last → last.density < d → entry = .level last.exposure true))

/-- O25. For every residual q of 0..4095 the duty d is 255 × 10^(−q/1000) rounded half up: d − 1/2 is at most that
value, strictly below it where q is no multiple of 1000, and the value is below d + 1/2. The entry for 1000 is 26,
for 0 is 255 and for 1 is 254; d is at least 128 for q up to 299, and 255 only for q = 0. A pixel that stage 4
gives rung r has the duty of its residual, raised to 16; on a spaced ladder's rung other than the last the
residual is at most 299; and duty 255 is handed on only where E equals the rung's power, or in a power clip. [R68] -/
def Obligations.DutyIsTheExactPowerRoundedHalfUp : Prop :=
  (∀ q : Nat, q ≤ 4095 →
    (duty q : ℝ) - 1 / 2 ≤ 255 * (10 : ℝ) ^ (-(q : ℝ) / 1000) ∧
    255 * (10 : ℝ) ^ (-(q : ℝ) / 1000) < (duty q : ℝ) + 1 / 2 ∧
    (q % 1000 ≠ 0 → (duty q : ℝ) - 1 / 2 < 255 * (10 : ℝ) ^ (-(q : ℝ) / 1000)) ∧
    (q ≤ 299 → 128 ≤ duty q) ∧ (duty q = 255 → q = 0)) ∧
  255 * (10 : ℝ) ^ (-(1000 : ℝ) / 1000) = 25.5 ∧ duty 1000 = 26 ∧ duty 0 = 255 ∧ duty 1 = 254 ∧
  ∀ (rungs : List Rung) (e : Nat) (clip : Bool),
    (∀ (r : Nat) (g : Rung), chooseRung e 0 rungs = some (r, g) →
      let d := duty (g.power - e)
      onLadder rungs e clip = .pulse r g.dac (max 16 d) clip false (decide (d < 16)) ∧
      ((∀ (i : Nat) (x y : Rung), rungs[i]? = some x → rungs[i + 1]? = some y →
          y.power < x.power ∧ x.power - y.power ≤ 300) → r + 1 < rungs.length → g.power - e ≤ 299)) ∧
    (∀ (r dac : Nat) (power floor : Bool), (∀ g ∈ rungs, g.power ≤ 4095) →
      onLadder rungs e clip = .pulse r dac 255 clip power floor →
      power = true ∨ ∃ g, rungs[r]? = some g ∧ g.dac = dac ∧ e = g.power)

/-- O26. On a ladder whose powers strictly decrease by at most 300 mL, the lane chooses the highest-numbered rung r
with P_r at least E. If E is at most the last power it is the last rung; if P_{r+1} < E ≤ P_r it is r, with a
residual of at most 299; if E equals P_r it is r, with residual 0 and duty 255; and if E is above P_0 the pixel is
a power clip on rung 0 with duty 255. [R66] -/
def Obligations.RungIsTheWeakestThatReachesTheExposure : Prop :=
  ∀ (rungs : List Rung) (e : Nat) (clip : Bool),
    (∀ (i : Nat) (x y : Rung), rungs[i]? = some x → rungs[i + 1]? = some y →
      y.power < x.power ∧ x.power - y.power ≤ 300) →
    (∀ (r : Nat) (g : Rung), chooseRung e 0 rungs = some (r, g) ↔
      (rungs[r]? = some g ∧ e ≤ g.power ∧ ∀ (i : Nat) (x : Rung), rungs[i]? = some x → e ≤ x.power → i ≤ r)) ∧
    (∀ (r : Nat) (g : Rung), rungs[r]? = some g →
      (r + 1 = rungs.length → e ≤ g.power →
        chooseRung e 0 rungs = some (r, g) ∧ 0 ≤ g.power - e ∧ g.power - e ≤ g.power) ∧
      (∀ h, rungs[r + 1]? = some h → h.power < e → e ≤ g.power →
        chooseRung e 0 rungs = some (r, g) ∧ g.power - e ≤ 299) ∧
      (e = g.power → onLadder rungs e clip = .pulse r g.dac 255 clip false false)) ∧
    (∀ (top : Rung) (rest : List Rung), rungs = top :: rest → top.power < e →
      chooseRung e 0 rungs = none ∧ onLadder rungs e clip = .pulse 0 top.dac 255 clip true false)

/-- O27. An FSN of no record is refused with NOT_FOUND and a FINISHED record with BAD_STATE. Any other record is
removed with cause ABORT_COMMAND: undecided lines are missing, its slots are freed, its pin goes, its FSN enters
the aborted-FSN register where its data side was OPEN, the queue becomes HELD where it was POSITIONING or
EXPOSING, an exposing record's line and line wait stop, and its report stands behind the REPLY, or joins the
backlog where an older report waits (log entry 19). It gives the record's numbers, lines, flags, scan lines
written and S, and, for an exposing record, the slips and each colour's pixel counts, else zeros. -/
def Obligations.AbortFrameRemovesTheRecordItNames : Prop :=
  ∀ (tag : Nat) (b : Byte) (s : State), CommandReady tag 0x20 [b] s →
    (s.fq.records.map FrameRecord.fsn).Nodup →
    let fsn := b.toNat
    (record fsn s = none → exec .abortFrame s = .next (answeredWith tag 0x20 (refused .notFound) s)) ∧
    ∀ r : FrameRecord, record fsn s = some r →
      (r.exposure = .finished → exec .abortFrame s = .next (answeredWith tag 0x20 (refused .badState) s)) ∧
      (r.exposure ≠ .finished → ∃ t rep, exec .abortFrame s = .next t ∧ AbortReport .abortCommand r s rep ∧
        (r.exposure = .exposing → rep.abortLine = some (s.stu.writing.getD s.stu.scanCounter) ∧
          rep.midLine = some s.stu.writing.isSome ∧
          t.stu = { s.stu with lineWait := none, writing := none } ∧ t.pfm.line = none ∧
          (s.pfm.line ≠ none → ∀ c : Colour, (t.pfm.lanes.get c).pulseOpen = false)) ∧
        (r.exposure ≠ .exposing → t.stu = s.stu ∧ MonitorAsked s t) ∧
        t.fq = { s.fq with
          records := s.fq.records.filter (fun q => q.fsn != fsn)
          backlog := if reportWaiting s then s.fq.backlog ++ [rep] else s.fq.backlog
          held := s.fq.held || r.exposure == .positioning || r.exposure == .exposing } ∧
        (reportWaiting s = false → t.rtx.entries[s.rtx.entries.length + 1]? = some (.block (.report rep))) ∧
        t.lst = followHold { s.lst with
          slots := s.lst.slots.map (fun sl => if sl.state ≠ .free ∧ sl.fsn = some fsn then LineSlot.empty else sl)
          abortedFsn := if r.data = .opened then some fsn else s.lst.abortedFsn } ∧
        profile t r.slot = { profile s r.slot with pins := (profile s r.slot).pins - 1 } ∧
        (∀ n : Fin 2, n ≠ r.slot → profile t n = profile s n) ∧ t.pst.session = s.pst.session ∧
        t.ftc = { s.ftc with
          origin := if s.ftc.origin = some (.frame fsn) then some .command else s.ftc.origin } ∧
        Told (answeredWith tag 0x20 (accepted (be1 (exposureCode r.exposure) ++ be1 (dataCode r.data))) s) t ∧
        SameBut [.cpr, .rtx, .pst, .fq, .lst, .stu, .pfm, .ftc] s t)

/-- O28. FLUSH QUEUE leaves no record and no line slot of one, takes off each record's pin, clears HELD and answers
how many records it removed and how many it aborted. Each record's report, oldest first, takes a free entry behind
those of before while none waits before it, and from the first that must wait on joins the backlog (behind a
waiting report: log entry 19): a FINISHED record's own report, and any other's with cause FLUSH. An exposing
record's line stops, its pulses close and its line wait stops. An aborted record's advance goes on with origin
COMMAND, the last FSN aborted with its data side OPEN enters the aborted-FSN register, and HOLD follows the FREE
slots. RELEASE QUEUE clears HELD, answers whether it was held, and changes nothing else. -/
def Obligations.FlushAndReleaseClearHeld : Prop :=
  ∀ (tag : Nat) (s : State),
    (CommandReady tag 0x21 [] s → ∃ (t : State) (queued more : List Report), exec .flushQueue s = .next t ∧
      t.fq = { s.fq with records := [], backlog := s.fq.backlog ++ more, held := false } ∧
      (let reports := fun (l : List OutEntry) => l.filterMap fun e => match e with
        | .block (.report rep) => some rep | _ => none
       reports t.rtx.entries = reports s.rtx.entries ++ queued) ∧
      (s.fq.backlog ≠ [] → queued = []) ∧
      (s.fq.backlog = [] → (∀ r ∈ s.fq.records.tail, r.exposure ≠ .finished) →
        queued.length = min s.fq.records.length (31 - s.rtx.entries.length)) ∧
      (queued ++ more).length = s.fq.records.length ∧
      (∀ (i : Nat) (r : FrameRecord) (rep : Report), s.fq.records[i]? = some r → (queued ++ more)[i]? = some rep →
        (r.exposure = .finished → ∀ own, r.report = some own → rep = own) ∧
        (r.exposure ≠ .finished → AbortReport .flush r s rep) ∧
        (i = 0 → r.exposure = .exposing → rep.abortLine = some (s.stu.writing.getD s.stu.scanCounter) ∧
          rep.midLine = some s.stu.writing.isSome)) ∧
      ((∃ r ∈ s.fq.records, r.exposure = .exposing) →
        t.stu = { s.stu with lineWait := none, writing := none } ∧ t.pfm.line = none ∧
        (s.pfm.line ≠ none → ∀ c : Colour, (t.pfm.lanes.get c).pulseOpen = false)) ∧
      ((∀ r ∈ s.fq.records, r.exposure ≠ .exposing) → t.stu = s.stu ∧ MonitorAsked s t) ∧
      t.lst = { s.lst with
        slots := s.lst.slots.map (fun sl =>
          if ∃ r ∈ s.fq.records, sl.state ≠ .free ∧ sl.fsn = some r.fsn then LineSlot.empty else sl)
        abortedFsn := s.fq.records.foldl
          (fun a r => if r.exposure ≠ .finished ∧ r.data = .opened then some r.fsn else a) s.lst.abortedFsn
        hold := t.lst.hold } ∧
      (HoldFollows s → (freeSlots t.lst ≤ 6 → t.lst.hold = true) ∧ (10 ≤ freeSlots t.lst → t.lst.hold = false) ∧
        (6 < freeSlots t.lst → freeSlots t.lst < 10 → t.lst.hold = s.lst.hold)) ∧
      t.ftc = { s.ftc with origin :=
        if ∃ r ∈ s.fq.records, r.exposure ≠ .finished ∧ s.ftc.origin = some (.frame r.fsn) then some .command
        else s.ftc.origin } ∧
      t.pst.session = s.pst.session ∧
      (∀ n : Fin 2, profile t n = { profile s n with
        pins := (profile s n).pins - s.fq.records.countP fun r => decide (r.slot = n) }) ∧
      Told (answeredWith tag 0x21 (accepted (be2 s.fq.records.length ++
        be2 (s.fq.records.countP fun r => r.exposure != .finished))) s) t ∧
      SameBut [.cpr, .rtx, .pst, .fq, .lst, .stu, .pfm, .ftc] s t) ∧
    (CommandReady tag 0x22 [] s → ∃ t, exec .releaseQueue s = .next t ∧
      t.fq = { s.fq with held := false } ∧
      Told (answeredWith tag 0x22 (accepted (be1 (if s.fq.held then 1 else 0))) s) t ∧
      SameBut [.cpr, .rtx, .fq] s t)

/-- O29. In a queue that is not HELD the oldest WAITING record goes POSITIONING. With an advance above 0 and the
transport UNREGISTERED or REGISTERED its advance begins: ADVANCING in stage return, origin FRAME, the counter
loaded, homing requested. With advance 0 and REGISTERED homing is requested. While ADVANCING or SETTLING it waits.
With advance 0 and UNREGISTERED it is aborted with NOT_REGISTERED, and in FAULT with TRANSPORT, and the queue
becomes HELD. All of it happens at the moment at which its conditions hold: time does not pass that (log entry 2). -/
def Obligations.PositioningBeginsFromTheTransportsState : Prop :=
  ∀ (r : FrameRecord) (rest : List FrameRecord) (s : State), s.fq.records = r :: rest →
    r.exposure = .waiting → s.fq.held = false → (∀ q ∈ rest, q.fsn ≠ r.fsn) →
    let goesOn := fun (t : State) (p : PositionStep) =>
      t.fq = { s.fq with records := { r with exposure := .positioning, step := some p } :: rest } ∧
      t.pst = s.pst ∧ t.lst = s.lst
    let homing := fun (t : State) =>
      (s.ftc.stage = .idle ∨ s.ftc.stage = .unknown → t.ftc.stage = .homing ∧
        t.ftc.stageTimer = some (timebase s) ∧ t.ftc.homeWaiting = false) ∧
      (s.ftc.stage = .stepping → t.ftc.stage = .stepping ∧ t.ftc.homeWaiting = true) ∧
      (s.ftc.stage = .homing → t.ftc.stage = .homing ∧ t.ftc.stageTimer = s.ftc.stageTimer)
    let lost := fun (t : State) (cause : AbortCause) =>
      t.fq.records = rest ∧ t.fq.held = true ∧ t.ftc.state = s.ftc.state ∧
      (profile t r.slot).pins = (profile s r.slot).pins - 1 ∧
      ∃ rep : Report, rep.fsn = r.fsn ∧ rep.abortCause = some cause ∧ rep.sideAtAbort = some .positioning ∧
        (t.rtx.entries[s.rtx.entries.length]? = some (.block (.report rep)) ∧ t.fq.backlog = s.fq.backlog ∨
         t.fq.backlog = s.fq.backlog ++ [rep])
    (s.clock, some Instr.positioningStart) ∈ waiting s ∧
    ∃ t, exec .positioningStart s = .next t ∧
      (s.ftc.state = .unregistered ∨ s.ftc.state = .registered → 0 < r.advance →
        goesOn t .advancing ∧ homing t ∧ t.ftc.state = .advancing ∧ t.ftc.phase = some .stageReturn ∧
        t.ftc.origin = some (.frame r.fsn) ∧ t.ftc.counter = r.advance ∧ t.ftc.pinsIn = s.ftc.pinsIn ∧
        t.ftc.motor = s.ftc.motor) ∧
      (s.ftc.state = .registered → r.advance = 0 →
        goesOn t .homing ∧ homing t ∧ t.ftc.state = .registered ∧ t.ftc.pinsIn = s.ftc.pinsIn ∧
        t.ftc.origin = s.ftc.origin) ∧
      (s.ftc.state = .advancing ∨ s.ftc.state = .settling → goesOn t .waitTransport ∧ t.ftc = s.ftc) ∧
      (s.ftc.state = .unregistered → r.advance = 0 → lost t .notRegistered) ∧
      (s.ftc.state = .fault → lost t .transport) ∧
      Told s t ∧ MonitorAsked s t ∧ SameBut [.free, .cpr, .rtx, .pst, .fq, .lst, .pfm, .ftc] s t

/-- O30. With no measurement running the oldest record, POSITIONING and homed, goes EXPOSING with its setup latched
from the pending trims, offsets, start delay and rung guard; the lanes take trims and slot with counts 0 and hold
buffers DARK; the STU takes facets and vertical offsets with counter and slips 0 and the line wait started; the
PFM takes its geometry with no rung in effect, truncations 0 and amplitude 0, but for a colour whose monitor pulse
is open, which keeps its amplitude (log entry 22); STALE_LADDER is set where some epoch differs; and FRAME STARTED
occurs for a record with START NOTICE. It happens as soon as its conditions hold: time does not pass that moment
without it, nor the moment of an edge without that edge's row, so that no edge before the entry starts a line (log
entry 2). -/
def Obligations.ExposureStartLatchesTheSetup : Prop :=
  ∀ (r : FrameRecord) (rest : List FrameRecord) (s : State), s.fq.records = r :: rest →
    r.exposure = .positioning → r.step = some .homed → (∀ q ∈ rest, q.fsn ≠ r.fsn) →
    s.lmn.measurement = none →
    (s.clock, some Instr.exposureStart) ∈ waiting s ∧
    let setup : LatchedSetup :=
      { trims := ⟨s.lanes.red.pendingTrim, s.lanes.green.pendingTrim, s.lanes.blue.pendingTrim⟩
        vertical := s.stu.verticalPending
        horizontal := ⟨s.pfm.lanes.red.horizontalPending, s.pfm.lanes.green.horizontalPending,
                       s.pfm.lanes.blue.horizontalPending⟩
        startDelay := s.pfm.startDelayPending, rungGuard := s.pfm.rungGuardPending }
    ∃ t stale, exec .exposureStart s = .next t ∧
      t.fq = { s.fq with records :=
        { r with exposure := .exposing, step := none, setup := some setup, linesWritten := 0,
                 staleLadder := stale } :: rest } ∧
      (stale = true ↔ r.staleLadder = true ∨
        ∃ c : Colour, ((profile s r.slot).plt.get c).epoch ≠ (s.lmn.channels.get c).epoch) ∧
      t.stu = { s.stu with
        facets := s.stu.facetsPending, vertical := s.stu.verticalPending, scanCounter := 0,
        slips := ⟨0, 0, 0, 0, 0⟩, lineWait := some (timebase s), writing := none } ∧
      t.pfm.startDelay = s.pfm.startDelayPending ∧ t.pfm.rungGuard = s.pfm.rungGuardPending ∧
      t.pfm.startDelayPending = s.pfm.startDelayPending ∧ t.pfm.rungGuardPending = s.pfm.rungGuardPending ∧
      t.pfm.line = s.pfm.line ∧ (s.pfm.request.isSome = true → t.pfm.request = s.pfm.request) ∧
      (s.pfm.request = none → RequestComposed t) ∧
      (∀ c : Colour,
        t.lanes.get c = { s.lanes.get c with
          trim := (s.lanes.get c).pendingTrim, densityClips := 0, powerClips := 0, floorClamps := 0,
          slot := some r.slot, holdBuffer := [] } ∧
        t.pfm.lanes.get c = { s.pfm.lanes.get c with
          horizontal := (s.pfm.lanes.get c).horizontalPending, rung := none, truncations := 0,
          amplitude := if monitorPulseOpen s.pfm c then (s.pfm.lanes.get c).amplitude else 0 } ∧
        (monitorPulseOpen s.pfm c = true ↔ (s.pfm.lanes.get c).pulseOpen = true ∧
          ∃ q, s.pfm.request = some q ∧ q.opened = true ∧ q.shots.get c ≠ none)) ∧
      (r.startNotice = true → t.cpr.current.frameStarted = bump8 s.cpr.current.frameStarted ∧
        t.cpr.current.startedFsn = some r.fsn) ∧
      (r.startNotice = false → t.cpr.current.frameStarted = s.cpr.current.frameStarted ∧
        t.cpr.current.startedFsn = s.cpr.current.startedFsn) ∧
      Told s t ∧ SameBut [.cpr, .rtx, .fq, .lanes, .stu, .pfm] s t

/-- O31. TRANSMISSION_BEGINS frames the oldest entry's block on the outbound lane (the byte of a NOTICE's acquire-
fault flag is log entry 12), and a NOTICE sets the reported values. ENTRY_SENT frees its entry once the trace has
brought the end of its last byte (log entry 2). A free entry is granted to the report that waits: a FINISHED
record's, which then leaves the queue, or the backlog's oldest, where a FINISHED record's has reports before it,
of which one fewer then is; and, where no report waits, to the waiting notice (that it waits behind every report:
log entry 36). -/
def Obligations.OutboundQueueSendsAndGrants : Prop :=
  ∀ s : State,
    (∀ (b : OutBlock) (rest : List OutEntry), s.rtx.sending = false → s.rtx.entries = .block b :: rest →
      exec .transmissionBegins s = .next ((s.withRtx { s.rtx with sending := true, lane := outBytes b }).withCpr
        { s.cpr with reported := match b with | .notice n => n.values | _ => s.cpr.reported })) ∧
    (inputComes .sent s).sen.sent = s.rtx.sending ∧
    (∀ (seen : Trace) (x : OutEntry) (rest : List OutEntry), s.rtx.sending = true → s.rtx.entries = x :: rest →
      let e := sense seen s
      (e.sen.sent = true → exec (.entrySent seen) s =
        .next ((e.withSen { e.sen with sent := false }).withRtx
          { s.rtx with entries := rest, sending := false, lane := [] })) ∧
      (e.sen.sent = false → exec (.entrySent seen) s = .next e)) ∧
    (s.rtx.entries.length < 32 →
      (∀ n : Notice, s.cpr.waitingNotice = some n → s.fq.backlog = [] →
        (∀ q ∈ s.fq.records, q.exposure ≠ .finished) →
        exec .noticeGranted s = .next ((s.withRtx { s.rtx with
            entries := s.rtx.entries ++ [.block (.notice n)] }).withCpr
          { s.cpr with waitingNotice := none })) ∧
      (∀ (rep : Report) (more : List Report), s.fq.backlog = rep :: more →
        (∀ r rest, s.fq.records = r :: rest → r.exposure = .finished → 0 < r.behind) →
        ∃ t, exec .reportGranted s = .next t ∧
        t.fq = { s.fq with
          backlog := more, records := s.fq.records.map fun q => { q with behind := q.behind - 1 } } ∧
        t.rtx.entries[s.rtx.entries.length]? = some (.block (.report rep)) ∧
        Told s t ∧ MonitorAsked s t ∧ SameBut [.cpr, .rtx, .fq, .pfm] s t) ∧
      (∀ (r : FrameRecord) (rest : List FrameRecord) (rep : Report), s.fq.records = r :: rest →
        (∀ q ∈ rest, q.fsn ≠ r.fsn) → r.exposure = .finished → r.report = some rep →
        r.behind = 0 ∨ s.fq.backlog = [] → ∃ t, exec .reportGranted s = .next t ∧
        t.fq = { s.fq with records := rest } ∧
        t.rtx.entries[s.rtx.entries.length]? = some (.block (.report rep)) ∧
        profile t r.slot = { profile s r.slot with pins := (profile s r.slot).pins - 1 } ∧
        (∀ sl ∈ t.lst.slots, sl.state ≠ .free → sl.fsn ≠ some r.fsn) ∧
        Told s t ∧ MonitorAsked s t ∧ SameBut [.cpr, .rtx, .fq, .pst, .lst, .pfm] s t))

/-- O32. A STOPPED polygon goes ACQUIRING with the motor on, the run count 0 and the acquire timer started, and the
POLYGON condition follows; a running one is left as it is. The answer is OK with already running or not, the state
before, the glitch count and the last facet period. The arrival of lock is seen in the POLYGON condition. (What is
sent of a period that its four bytes cannot hold, PolygonStopIsRefusedOrStopsWithoutTrigger says for both
commands.) [R122] -/
def Obligations.PolygonStartAcquiresOrAnswersAlreadyRunning : Prop :=
  (∀ (tag : Nat) (s : State), CommandReady tag 0x28 [] s → s.stu.lastPeriod < 4294967296 →
    (s.stu.polygon = .stopped → ∃ t, exec .polygonStart s = .next t ∧
      t.stu = { s.stu with
        polygon := .acquiring, motor := true, runCount := 0, acquireTimer := some (timebase s),
        periodStart := none, periodOverrun := false } ∧
      t.cpr.current.polygon = .acquiring ∧
      Told (answeredWith tag 0x28 (accepted ([0x00] ++ be1 (polygonCode .stopped) ++ be4 s.stu.glitches ++
        be4 s.stu.lastPeriod)) s) t ∧
      MonitorAsked s t ∧ SameBut [.cpr, .rtx, .stu, .pfm] s t) ∧
    (s.stu.polygon ≠ .stopped → exec .polygonStart s = .next (answeredWith tag 0x28 (accepted
      ([0x01] ++ be1 (polygonCode s.stu.polygon) ++ be4 s.stu.glitches ++ be4 s.stu.lastPeriod)) s))) ∧
  (∀ s : State, s.stu.polygon = .acquiring → 64 ≤ s.stu.runCount →
    ∃ t, exec .polygonLock s = .next t ∧ t.stu.polygon = .locked ∧ t.cpr.current.polygon = .locked)

/-- O33. While a record is EXPOSING or a measurement runs POLYGON STOP is refused with BUSY and changes nothing. On a
STOPPED polygon it changes nothing. Otherwise the polygon goes STOPPED with the motor off, run count and acquire
timer stopped, the acquire fault clear and facet sync HUNT; the drift accumulators are emptied and the blank latch
is untouched. That the STOPPED polygon's period timing also ends, and that its run count holds 0, is the model's
reading (log entry 17). The answer gives the state before, the glitch count and the last facet period, a larger
one sent as 4,294,967,295, without a first byte for already running; POLYGON START sends such a period so too: the
model's choices (log entry 12). -/
def Obligations.PolygonStopIsRefusedOrStopsWithoutTrigger : Prop :=
  ∀ (tag : Nat) (s : State),
    let data := be1 (polygonCode s.stu.polygon) ++ be4 s.stu.glitches ++ be4 (min 4294967295 s.stu.lastPeriod)
    let busy := (∃ r rest, s.fq.records = r :: rest ∧ r.exposure = .exposing) ∨ s.lmn.measurement ≠ none
    (CommandReady tag 0x28 [] s →
      (s.stu.polygon = .stopped → ∃ t, exec .polygonStart s = .next t ∧ t.stu.polygon = .acquiring ∧
        Told (answeredWith tag 0x28 (accepted ([0x00] ++ data)) s) t) ∧
      (s.stu.polygon ≠ .stopped → exec .polygonStart s =
        .next (answeredWith tag 0x28 (accepted ([0x01] ++ data)) s))) ∧
    (CommandReady tag 0x29 [] s →
      (busy → exec .polygonStop s = .next (answeredWith tag 0x29 (refused .busy) s)) ∧
      (¬ busy → s.stu.polygon = .stopped → exec .polygonStop s = .next (answeredWith tag 0x29 (accepted data) s)) ∧
      (¬ busy → s.stu.polygon ≠ .stopped → ∃ t, exec .polygonStop s = .next t ∧
        t.stu = { s.stu with
          polygon := .stopped, motor := false, runCount := 0, acquireTimer := none, acquireFault := false,
          periodStart := none, periodOverrun := false, facetSync := .hunt, goodRevs := 0, revOpen := false } ∧
        (∀ c : Colour, t.lmn.channels.get c = { s.lmn.channels.get c with accCount := 0, accSum := 0 }) ∧
        t.lmn.retraceCount = s.lmn.retraceCount ∧ t.lmn.value = s.lmn.value ∧
        Told (answeredWith tag 0x29 (accepted data) s) t ∧ MonitorAsked s t ∧
        SameBut [.cpr, .rtx, .stu, .lmn, .pfm] s t))

/-- O34. SET POLYGON (on a STOPPED polygon alone), SET FACETS, SET LINE GEOMETRY and SET PULSE GEOMETRY write their
values brought within their ranges, into the pending copies where there are such, answer them, and are CLAMPED
exactly where some value was out of range; SET FACETS refuses a facet above 9. SET BLANK SOURCES sets the mask to
the set named less INTERLOCK, answers it with the trigger conditions present (all six in one source set, log entry
12), and refuses bits 6 and 7. Nothing else changes. -/
def Obligations.SettingCommandsWriteTheLimitedValues : Prop :=
  ∀ (tag : Nat) (s : State),
    (∀ x y : Nat, x < 4294967296 → y < 65536 → CommandReady tag 0x2A (be4 x ++ be2 y) s →
      let n := max 20000 (min 200000 x)
      let w := max 1000 (min 60000 y)
      (s.stu.polygon ≠ .stopped → exec .setPolygon s = .next (answeredWith tag 0x2A (refused .badState) s)) ∧
      (s.stu.polygon = .stopped → exec .setPolygon s =
        .next ((answeredWith tag 0x2A (carriedOut (decide (n = x ∧ w = y)) (be4 n ++ be2 w)) s).withStu
          { s.stu with nominal := n, acquireLimit := w }))) ∧
    (∀ (f : Nat) (x r g b : Int), f < 256 → -32768 ≤ x → x < 32768 → -32768 ≤ r → r < 32768 →
      -32768 ≤ g → g < 32768 → -32768 ≤ b → b < 32768 →
      CommandReady tag 0x2B (be1 f ++ beSigned x ++ beSigned r ++ beSigned g ++ beSigned b) s →
      let sh := max (-128) (min 127 x)
      let p : PerColour Int := ⟨max (-40) (min 40 r), max (-40) (min 40 g), max (-40) (min 40 b)⟩
      (10 ≤ f → exec .setFacets s = .next (answeredWith tag 0x2B (refused .badArgument) s)) ∧
      (f < 10 → exec .setFacets s =
        .next ((answeredWith tag 0x2B (carriedOut (decide (sh = x ∧ p = ⟨r, g, b⟩))
            (be1 f ++ beSigned sh ++ beSigned p.red ++ beSigned p.green ++ beSigned p.blue)) s).withStu
          { s.stu with facetsPending := s.stu.facetsPending.set f ⟨sh, p⟩ }))) ∧
    (∀ r g b : Nat, r < 256 → g < 256 → b < 256 → CommandReady tag 0x2C (be1 r ++ be1 g ++ be1 b) s →
      let v : PerColour Nat := ⟨min 15 r, min 15 g, min 15 b⟩
      exec .setLineGeometry s =
        .next ((answeredWith tag 0x2C (carriedOut (decide (v = ⟨r, g, b⟩))
            (be1 v.red ++ be1 v.green ++ be1 v.blue)) s).withStu { s.stu with verticalPending := v })) ∧
    (∀ r g b d u : Nat, r < 256 → g < 256 → b < 256 → d < 65536 → u < 256 →
      CommandReady tag 0x30 (be1 r ++ be1 g ++ be1 b ++ be2 d ++ be1 u) s →
      let h : PerColour Nat := ⟨min 63 r, min 63 g, min 63 b⟩
      exec .setPulseGeometry s =
        .next ((answeredWith tag 0x30 (carriedOut (decide (h = ⟨r, g, b⟩ ∧ min 1023 d = d ∧ min 32 u = u))
            (be1 h.red ++ be1 h.green ++ be1 h.blue ++ be2 (min 1023 d) ++ be1 (min 32 u))) s).withPfm
          { s.pfm with
            startDelayPending := min 1023 d
            rungGuardPending := min 32 u
            lanes := ⟨{ s.pfm.lanes.red with horizontalPending := h.red },
                      { s.pfm.lanes.green with horizontalPending := h.green },
                      { s.pfm.lanes.blue with horizontalPending := h.blue }⟩ })) ∧
    (∀ n : Nat, n < 256 → CommandReady tag 0x49 (be1 n) s →
      let mask : SourceSet := BitVec.ofNat 6 n &&& 0x3E
      let present := (if s.blc.interlockOpen then 1 else 0) + (if s.stu.polygon ≠ .locked then 2 else 0) +
        (if s.stu.facetSync = .hunt then 4 else 0) + (if s.ftc.state = .fault then 8 else 0) +
        (if s.lmn.channels.red.beyond || s.lmn.channels.green.beyond || s.lmn.channels.blue.beyond then 16 else 0)
      (64 ≤ n → exec .setBlankSources s = .next (answeredWith tag 0x49 (refused .badArgument) s)) ∧
      (n < 64 → exec .setBlankSources s =
        .next ((answeredWith tag 0x49 (accepted (be1 mask.toNat ++ be1 present)) s).withBlc
          { s.blc with mask := mask })))

/-- O35. SET LINE WAIT and SET TRANSPORT write their limited values and answer them. Where the running line wait timer
has already reached the new limit the exposing record is aborted with LINE_WAIT at once; where a film run's perf
timer has, the transport goes to FAULT with STALL; where a settle timer has, it goes REGISTERED on engaged pins,
and a record waiting for its advance requests homing, or to FAULT with PIN; otherwise nothing else changes.
LINE_WAIT_EXPIRY lets time pass to the end of the line wait and there aborts the exposing record with LINE_WAIT;
where time does not reach it, for an edge of an earlier moment that waits, say, it does not (log entry 2). That a
timer's end happens within the command's own step, whose answer gives the transport and the stage as they then
stand, and that settling is read from the pin state of that moment, is the model's reading (logs 8, 9, 12). -/
def Obligations.TimerLimitsReachRunningTimers : Prop :=
  ∀ (tag : Nat) (s : State),
    let lost := fun (r : FrameRecord) (rest : List FrameRecord) (t : State) =>
      t.fq.records = rest ∧ t.stu.writing = none ∧ t.pfm.line = none ∧ CopyIsCurrent t ∧
      AbortedWith .lineWait r s t
    (∀ x : Nat, x < 65536 → CommandReady tag 0x2D (be2 x) s →
      let w := max 100 (min 60000 x)
      let s1 := answeredWith tag 0x2D (carriedOut (decide (w = x)) (be2 w)) s
      (s.stu.lineWait = none ∨ (∃ t0, s.stu.lineWait = some t0 ∧ timebase s < t0 + w) →
        exec .setLineWait s = .next (s1.withStu { s.stu with lineWaitLimit := w })) ∧
      (∀ r rest t0, s.stu.lineWait = some t0 → t0 + w ≤ timebase s → s.fq.records = r :: rest →
        r.exposure = .exposing → (∀ q ∈ rest, q.fsn ≠ r.fsn) → ∃ t, exec .setLineWait s = .next t ∧
        t.stu.lineWaitLimit = w ∧ lost r rest t ∧ Noticed s1 t)) ∧
    (∀ r rest t0, s.stu.lineWait = some t0 → s.fq.records = r :: rest → r.exposure = .exposing →
      (∀ q ∈ rest, q.fsn ≠ r.fsn) →
      let due := (t0 + s.stu.lineWaitLimit) * 131072000000
      let before := reach due s
      (before.clock < due → exec .lineWaitExpiry s = .next before) ∧
      (due ≤ before.clock → ∃ t, exec .lineWaitExpiry s = .next t ∧ Came before s t ∧ lost r rest t ∧ Noticed s t)) ∧
    (∀ x y : Nat, x < 65536 → y < 65536 → CommandReady tag 0x42 (be2 x ++ be2 y) s →
      let settle := max 5 (min 500 x)
      let perf := max 20 (min 2000 y)
      let stalled := s.ftc.state = .advancing ∧ s.ftc.phase = some .filmRun ∧ 0 < s.ftc.counter ∧
        ∃ t0, s.ftc.perfTimer = some t0 ∧ t0 + perf ≤ timebase s
      let settled := s.ftc.state = .settling ∧ ∃ t0, s.ftc.settleTimer = some t0 ∧ t0 + settle ≤ timebase s
      let answered := fun (f : Ftc) =>
        answeredWith tag 0x42 (carriedOut (decide (settle = x ∧ perf = y))
          (be2 settle ++ be2 perf ++ be1 (transportCode f.state) ++ be1 (stageCode f.stage) ++
           (f.position.map be2).getD [])) s
      let set := { s.ftc with settleInterval := settle, perfTimeout := perf }
      let faults := fun (cause : FaultCause) (t : State) => FaultSignalled s t ∧
        t.ftc = { set with
          state := .fault, faultCause := some cause, phase := none, origin := none, counter := 0,
          perfTimer := none, settleTimer := none, motor := false }
      (¬ stalled → ¬ settled → exec .setTransport s = .next ((answered s.ftc).withFtc set)) ∧
      (stalled ∨ settled → ∃ t, exec .setTransport s = .next t ∧ Told (answered t.ftc) t ∧
        (stalled → faults .stall t) ∧
        (settled → s.sen.pin.level = false → faults .pin t) ∧
        (settled → s.sen.pin.level = true →
          ((∀ r ∈ s.fq.records, r.exposure ≠ .positioning) → t.fq = s.fq ∧ t.ftc = { set with
            state := .registered, origin := none, settleTimer := none }) ∧
          ∀ r rest, s.fq.records = r :: rest → (∀ q ∈ rest, q.fsn ≠ r.fsn) → r.exposure = .positioning →
            r.step = some .advancing → s.ftc.origin = some (.frame r.fsn) →
            t.ftc.state = .registered ∧ t.ftc.origin = none ∧ t.ftc.settleTimer = none ∧
            t.fq = { s.fq with records := { r with step := some .homing } :: rest })))

/-- O36. BEAM_DETECT_EDGE takes a filtered edge of the beam-detect input where the trace has brought one, at its own
time, which time does not pass without it (log entry 2). One N/2 counts or fewer after the last accepted edge is
only counted as a glitch. An accepted edge in a LOCKED polygon whose period lies in the lock band leaves it
LOCKED, numbers the facet, adds one to the retrace count modulo 8 while a drift loop runs, binds the held monitor
request to its own time, or, before the end of the window of one already bound (a moment of ticks, log entry 26),
marks it and closes its open pulses (before the window opens too, log entry 18). With no record EXPOSING, no line
left or the transport not REGISTERED it does no more; otherwise it counts one slip where it writes no line: SYNC
without facet sync, else BLANKED under the latch, else LASER with a channel not READY, else STAGE with a line
still placed or the stage busy, else DATA with a source not ready. A twelfth edge is taken as without facet sync
(log entry 15). An edge accepted on a polygon that is not LOCKED, or that takes lock from it by its period where
no blank takes the exposure, counts a SYNC slip for such a record; the edge of the 64th period in the acquire band
still finds the polygon ACQUIRING (log entry 39). That an edge which takes lock is itself such a slip, the period
being judged before the line start, is log entry 34, and that the last facet period is set also after an overrun
is log entry 16. -/
def Obligations.AcceptedEdgeSlipsForTheFirstReason : Prop :=
  ∀ (seen : Trace) (s : State),
    let e := sense seen s
    let now := e.clock
    let sensors := { e.sen with beam := { e.sen.beam with fired := false } }
    (e.sen.beam.fired = false → exec (.beamDetectEdge seen) s = .next e) ∧ (e.sen.beam.fired = true →
    (∀ last, s.stu.lastEdge = some last → (now - last) / 1310720 ≤ s.stu.nominal / 2 →
      exec (.beamDetectEdge seen) s =
      .next ((e.withSen sensors).withStu { s.stu with glitches := bump32 s.stu.glitches })) ∧
    (∀ t0 : Nat,
      (∀ last, s.stu.lastEdge = some last → s.stu.nominal / 2 < (now - last) / 1310720) →
      s.stu.polygon = .locked → s.stu.periodStart = some t0 → s.stu.periodOverrun = false →
      ((((now - t0) / 1310720 : Nat) : Int) - s.stu.nominal).natAbs * 200 ≤ s.stu.nominal →
      let run := min 12 (s.stu.edgeRun + 1)
      let known := s.stu.facetSync = .synced ∧ run < 12
      let ready := ∀ c : Colour, (s.lmn.channels.get c).state = .ready
      let free := s.pfm.line = none ∧ s.ftc.stage ≠ .homing ∧ s.ftc.stage ≠ .stepping
      let loops := s.blc.latch = false ∧ s.lmn.measurement = none ∧
        ∃ c : Colour, (s.lmn.channels.get c).state = .ready
      let counted := fun (n : Slips) => ∃ t, exec (.beamDetectEdge seen) s = .next t ∧
        t.stu = { s.stu with
          lastEdge := some now, periodStart := some now, periodOverrun := false, lastPeriod := (now - t0) / 1310720,
          edgeRun := run, slips := n } ∧
        (loops → t.lmn = { s.lmn with retraceCount := (s.lmn.retraceCount + 1) % 8 }) ∧
        (¬ loops → t.lmn = s.lmn) ∧ Sensed seen s t ∧ t.sen = sensors ∧
        t.pfm.line = e.pfm.line ∧ t.lanes = e.lanes ∧ RequestMet now e t ∧ PulsesCut now e t ∧ Told s t ∧
        SameBut [.clock, .sen, .lrx, .lanes, .pfm, .stu, .lmn, .cpr, .rtx] s t
      (isExposing s = false → counted s.stu.slips) ∧
      ∀ (r : FrameRecord) (rest : List FrameRecord) (u : LatchedSetup),
        s.fq.records = r :: rest → r.exposure = .exposing → r.setup = some u →
        let lines := r.height + max u.vertical.red (max u.vertical.green u.vertical.blue)
        (lines ≤ s.stu.scanCounter ∨ s.ftc.state ≠ .registered → counted s.stu.slips) ∧
        (s.stu.scanCounter < lines → s.ftc.state = .registered →
          (¬ known → counted { s.stu.slips with sync := bump32 s.stu.slips.sync }) ∧
          (known → s.blc.latch = true → counted { s.stu.slips with blanked := bump32 s.stu.slips.blanked }) ∧
          (known → s.blc.latch = false → ¬ ready →
            counted { s.stu.slips with laser := bump32 s.stu.slips.laser }) ∧
          (known → s.blc.latch = false → ready → ¬ free →
            counted { s.stu.slips with stage := bump32 s.stu.slips.stage }) ∧
          (known → s.blc.latch = false → ready → free →
            (∃ c : Colour, laneSource r s.stu.scanCounter s c = none) →
            counted { s.stu.slips with data := bump32 s.stu.slips.data }))) ∧
    ((∀ last, s.stu.lastEdge = some last → s.stu.nominal / 2 < (now - last) / 1310720) →
      let edge := { s.stu with lastEdge := some now, edgeRun := min 12 (s.stu.edgeRun + 1) }
      let timed := { edge with periodStart := some now, periodOverrun := false }
      let took := fun (t : State) => exec (.beamDetectEdge seen) s = .next t ∧ Sensed seen s t ∧ t.sen = sensors ∧
        t.pfm.line = e.pfm.line ∧ t.lanes = e.lanes ∧ Told s t
      let slipped := fun (u : Stu) (n : Slips) => ∃ t, took t ∧ t.stu = { u with slips := n } ∧
        RequestMet now e t ∧ PulsesCut now e t ∧ SameBut [.clock, .sen, .lrx, .lanes, .pfm, .stu, .cpr, .rtx] s t
      let unlocked := fun (n : Slips) =>
        (s.stu.polygon = .stopped → slipped edge n) ∧
        (s.stu.polygon = .acquiring → s.stu.periodStart = none → slipped timed n) ∧
        (∀ t0 : Nat, s.stu.polygon = .acquiring → s.stu.periodStart = some t0 →
          let p := (now - t0) / 1310720
          slipped { timed with
            lastPeriod := p,
            runCount := if s.stu.periodOverrun then s.stu.runCount
              else if ((p : Int) - s.stu.nominal).natAbs * 1000 ≤ s.stu.nominal then min 64 (s.stu.runCount + 1)
              else 0 } n) ∧
        (∀ t0 : Nat, s.stu.polygon = .locked → s.stu.periodStart = some t0 → s.stu.periodOverrun = false →
          let p := (now - t0) / 1310720
          s.stu.nominal < ((p : Int) - s.stu.nominal).natAbs * 200 →
          s.blc.mask.getLsbD 1 = false ∨ s.blc.latch = true → ∃ t, took t ∧
          t.stu = { timed with
            lastPeriod := p, polygon := .acquiring, runCount := 0, acquireTimer := some (now / 131072000000),
            slips := n } ∧
          SameBut [.clock, .sen, .lrx, .lanes, .pfm, .stu, .lmn, .pst, .blc, .cpr, .rtx] s t)
      (isExposing s = false → unlocked s.stu.slips) ∧
      ∀ (r : FrameRecord) (rest : List FrameRecord) (u : LatchedSetup),
        s.fq.records = r :: rest → r.exposure = .exposing → r.setup = some u →
        let lines := r.height + max u.vertical.red (max u.vertical.green u.vertical.blue)
        (lines ≤ s.stu.scanCounter ∨ s.ftc.state ≠ .registered → unlocked s.stu.slips) ∧
        (s.stu.scanCounter < lines → s.ftc.state = .registered →
          unlocked { s.stu.slips with sync := bump32 s.stu.slips.sync })))

/-- O37. On an accepted edge (a filtered edge that the trace has brought, taken at its own time, log entry 2) in a
LOCKED polygon whose period lies in the lock band, with facet sync, a clear latch, READY channels, a free stage,
no line being placed and every source ready, the exposing record's next scan line is written: it is marked, the
line wait restarts at the edge's time, each lane takes its source and the offset trim + (drift - stamp) + the
facet's trim, and the PFM takes the edge's time and the lead-in start delay x 256 + start shift, at least 0. On an
eleventh edge the facet's shift and trims are free values within their ranges (log entry 14). The rung of each
lane's first result that is not dark is in effect, at its code, before position 0; a colour whose line is all dark
keeps its rung and amplitude. The edge binds or marks the held monitor request as any accepted edge does (its
window's end a moment of ticks, log entry 26; early edges, log entry 18), and closes the pulses of an open window.
No slip is counted. -/
def Obligations.LineIsWrittenWhenEveryConditionHolds : Prop :=
  ∀ (seen : Trace) (t0 : Nat) (r : FrameRecord) (rest : List FrameRecord) (u : LatchedSetup) (s : State),
    let e := sense seen s
    let now := e.clock
    e.sen.beam.fired = true →
    (∀ last, s.stu.lastEdge = some last → s.stu.nominal / 2 < (now - last) / 1310720) →
    s.stu.polygon = .locked → s.stu.periodStart = some t0 → s.stu.periodOverrun = false →
    ((((now - t0) / 1310720 : Nat) : Int) - s.stu.nominal).natAbs * 200 ≤ s.stu.nominal →
    s.fq.records = r :: rest → r.exposure = .exposing → r.setup = some u →
    s.stu.scanCounter < r.height + max u.vertical.red (max u.vertical.green u.vertical.blue) →
    s.ftc.state = .registered → s.stu.facetSync = .synced → s.stu.edgeRun < 11 →
    s.blc.latch = false →
    (∀ c : Colour, (s.lmn.channels.get c).state = .ready) → s.pfm.line = none →
    s.ftc.stage ≠ .homing → s.ftc.stage ≠ .stepping →
    (∀ c : Colour, laneSource r s.stu.scanCounter s c ≠ none) →
    ∃ t ln f lanes, exec (.beamDetectEdge seen) s = .next t ∧
      (∀ g, s.stu.facets[s.stu.edgeRun]? = some g → f = g ∧ t.free = s.free) ∧
      (s.stu.facets[s.stu.edgeRun]? = none → t.free = s.free + 1 ∧ -128 ≤ f.startShift ∧ f.startShift ≤ 127 ∧
        ∀ c : Colour, -40 ≤ f.trims.get c ∧ f.trims.get c ≤ 40) ∧
      t.stu = { s.stu with
        lastEdge := some now, periodStart := some now, periodOverrun := false, lastPeriod := (now - t0) / 1310720,
        edgeRun := s.stu.edgeRun + 1, writing := some s.stu.scanCounter,
        lineWait := some (now / 131072000000) } ∧
      t.pfm.line = some ln ∧ ln.scan = s.stu.scanCounter ∧ ln.edge = now ∧ ln.width = r.width ∧
      (ln.leadIn : Int) = max 0 ((s.pfm.startDelay : Int) * 256 + f.startShift) ∧
      t.pfm.startDelay = s.pfm.startDelay ∧ t.pfm.rungGuard = s.pfm.rungGuard ∧
      (∀ c : Colour,
        some (t.lanes.get c).source = laneSource r s.stu.scanCounter s c ∧
        (t.lanes.get c).offset = (s.lanes.get c).trim + ((s.lmn.channels.get c).drift -
          ((profile s ((s.lanes.get c).slot.getD 0)).plt.get c).stamp) + f.trims.get c ∧
        (t.lanes.get c).trim = (s.lanes.get c).trim ∧
        (t.lanes.get c).pendingTrim = (s.lanes.get c).pendingTrim ∧
        (t.lanes.get c).slot = (s.lanes.get c).slot ∧
        (t.lanes.get c).holdBuffer = (s.lanes.get c).holdBuffer ∧
        (t.pfm.lanes.get c).horizontal = (s.pfm.lanes.get c).horizontal) ∧
      PulsesCut now s (s.withPfm { s.pfm with lanes := lanes }) ∧
      (∀ c : Colour,
        let result := fun p => resultAt t c r.width p
        (∀ (p rung dac d : Nat) (x y z : Bool), p < r.width + 63 → (∀ i < p, result i = .dark) →
          result p = .pulse rung dac d x y z →
          (t.pfm.lanes.get c).rung = some (rung, dac) ∧ (t.pfm.lanes.get c).amplitude = dac) ∧
        ((∀ p < r.width + 63, result p = .dark) →
          (t.pfm.lanes.get c).rung = (lanes.get c).rung ∧
          (t.pfm.lanes.get c).amplitude = (lanes.get c).amplitude)) ∧
      (s.lmn.measurement = none → t.lmn = { s.lmn with retraceCount := (s.lmn.retraceCount + 1) % 8 }) ∧
      (s.lmn.measurement ≠ none → t.lmn = s.lmn) ∧ Sensed seen s t ∧
      t.sen = { e.sen with beam := { e.sen.beam with fired := false } } ∧ RequestMet now e t ∧ Told s t ∧
      SameBut [.clock, .free, .sen, .lrx, .lanes, .pfm, .stu, .lmn, .cpr, .rtx] s t

/-- O38. For scan line s lane c is given image line y = s - voff_c. Outside 0..H - 1 the source is dark; in a DARK
region dark, in a FILL region the colour's fill code. In an IMAGE region y is the data line k counted over IMAGE
lines: a READY or PARTIAL slot that holds it is the source; where no slot holds it the hold buffer is, once the
data side is CLOSED or, while OPEN, k is below k_cur; otherwise, and for an ASSEMBLING slot, the line is not
ready. -/
def Obligations.SourceOfALaneFollowsTheSourceRule : Prop :=
  ∀ (r : FrameRecord) (line : Nat) (c : Colour) (s : State),
    let voff := s.stu.vertical.get c
    (line < voff ∨ voff + r.height ≤ line → laneSource r line s c = some .dark) ∧
    ∀ (above : List Region) (g : Region) (below : List Region) (i : Nat),
      r.regions = above ++ g :: below → i < g.lines → line = voff + ((above.map Region.lines).sum + i) →
      (above.map Region.lines).sum + i < r.height →
      let k := ((above.filter fun q => q.kind == .image).map Region.lines).sum + i
      (g.kind = .dark → laneSource r line s c = some .dark) ∧
      (∀ codes, g.kind = .fill codes → laneSource r line s c = some (.fill (codes.get c))) ∧
      (g.kind = .image →
        (∀ (j : Nat) (sl : LineSlot), s.lst.slots[j]? = some sl → sl.state ≠ .free → sl.fsn = some r.fsn →
          sl.k = some k →
          (∀ (j' : Nat) (x : LineSlot), s.lst.slots[j']? = some x → x.state ≠ .free → x.fsn = some r.fsn →
            x.k = some k → j' = j) →
          laneSource r line s c = if sl.state = .assembling then none else some (.slot j)) ∧
        ((∀ sl ∈ s.lst.slots, ¬ (sl.state ≠ .free ∧ sl.fsn = some r.fsn ∧ sl.k = some k)) →
          laneSource r line s c =
            if r.data = .closed ∨ (r.data = .opened ∧ k < r.kCur) then some .hold else none))

/-- O39. LINE_COMPLETE lets time pass to the line's end (a moment of ticks, log entry 26), counts the written line,
adds to each slot the lanes that wrote from it and frees it once all three have, copies what each lane read from a
slot into its hold buffer, closes the pulses, and asks an IDLE stage for a step. After line S - 1 the record is
FINISHED: where an entry is free and no report waits in the backlog its report takes the entry and it leaves the
queue with its pin and its slots; otherwise it stays FINISHED with its report, behind those of the backlog (log
entry 19). The report gives the record's numbers, lines, flags, the scan lines written and S, the slips and each
colour's pixel counts as the last position left them. All of this happens at the line's end, where time reaches it
(log entry 2). -/
def Obligations.LineCompletionMarksHoldsAndSteps : Prop :=
  ∀ (ln : PlacedLine) (r : FrameRecord) (rest : List FrameRecord) (u : LatchedSetup) (s : State),
    s.pfm.line = some ln → s.fq.records = r :: rest → r.exposure = .exposing → r.setup = some u →
    (∀ q ∈ rest, q.fsn ≠ r.fsn) →
    let lines := r.height + max u.vertical.red (max u.vertical.green u.vertical.blue)
    let due := ln.edge + (ln.leadIn + (ln.width + 63) * 256) * s.stu.nominal
    let before := reach due s
    due ≤ before.clock →
    ∃ t, exec .lineComplete s = .next t ∧ Came before s t ∧
      t.stu.scanCounter = ln.scan + 1 ∧ t.stu.writing = none ∧ t.stu.slips = s.stu.slips ∧
      t.pfm.line = none ∧ (∀ c : Colour, (t.pfm.lanes.get c).pulseOpen = false) ∧
      (s.ftc.stage = .idle → t.ftc = { s.ftc with stage := .stepping, stageTimer := some (before.clock / 131072000000) }) ∧
      (s.ftc.stage ≠ .idle → t.ftc = s.ftc) ∧ t.sen = before.sen ∧
      (ln.scan + 1 < lines →
        t.fq = { s.fq with records := { r with linesWritten := r.linesWritten + 1 } :: rest } ∧
        t.stu.lineWait = s.stu.lineWait ∧ t.pst = s.pst ∧
        ∀ (i : Nat) (sl : LineSlot), s.lst.slots[i]? = some sl →
          let wrote := fun (c : Colour) => (sl.lanesDone.get c) || (s.lanes.get c).source == .slot i
          t.lst.slots[i]? = some (if sl.state = .free then sl
            else if wrote .red && wrote .green && wrote .blue then LineSlot.empty
            else { sl with lanesDone := ⟨wrote .red, wrote .green, wrote .blue⟩ })) ∧
      (lines ≤ ln.scan + 1 → ∃ rep : Report,
        ReportTells { r with linesWritten := r.linesWritten + 1 } before rep ∧ rep.missing = r.missing ∧
        rep.dataOutcome = dataOutcome r ∧ rep.abortCause = none ∧ rep.sideAtAbort = none ∧ rep.abortLine = none ∧
        rep.midLine = none ∧ t.stu.lineWait = none ∧
        (s.rtx.entries.length < 32 → s.fq.backlog = [] →
          t.fq = { s.fq with records := rest } ∧
          t.rtx.entries[s.rtx.entries.length]? = some (.block (.report rep)) ∧
          profile t r.slot = { profile s r.slot with pins := (profile s r.slot).pins - 1 } ∧
          (∀ n : Fin 2, n ≠ r.slot → profile t n = profile s n) ∧
          ∀ sl ∈ t.lst.slots, sl.state ≠ .free → sl.fsn ≠ some r.fsn) ∧
        (32 ≤ s.rtx.entries.length ∨ s.fq.backlog ≠ [] → t.pst = s.pst ∧
          t.fq = { s.fq with records := { r with
            linesWritten := r.linesWritten + 1, exposure := .finished, step := none, report := some rep,
            behind := s.fq.backlog.length } :: rest })) ∧
      (∀ (c : Colour) (x : Nat), x < 4096 → tableRead none (t.lanes.get c).holdBuffer x =
        match (s.lanes.get c).source with
        | .slot _ => if x < ln.width then pixelCode s.lst (s.lanes.get c) c x
                     else tableRead none (s.lanes.get c).holdBuffer x
        | _ => tableRead none (s.lanes.get c).holdBuffer x) ∧
      Told s t ∧ SameBut [.clock, .lrx, .sen, .cpr, .rtx, .pst, .fq, .lst, .lanes, .stu, .pfm, .ftc] s t

/-- O40. A beam-detect input sampled at every count gives an edge at its fourth active sample in a row after an
inactive one. At an accepted edge an ACQUIRING polygon's period in the acquire band adds one to the run count and
any other sets it to 0; the first edge after entry only starts a period; PERIOD_OVERRUN sets it to 0 one count
after N + N/1000; POLYGON_LOCK at 64 makes it LOCKED; ACQUIRE_TIMEOUT sets the acquire fault and the polygon stays
ACQUIRING. A LOCKED polygon whose period runs past N + N/200, or ends outside the lock band at an accepted edge,
which then starts the first period, goes ACQUIRING with run count 0 and a fresh timer; a measurement is abandoned,
the drift accumulators are emptied, and the POLYGON trigger reaches the blanking where it is enabled. Each happens
at its own moment, which time does not pass without it, so that an edge of an earlier moment comes before
PERIOD_OVERRUN (log entry 2). The edge after an overrun measures the last period but is not judged (log entry 16).
An edge, which the trace has brought, binds a monitor request not yet bound, and before the window's end (a moment
of ticks, log entry 26, timed by the N in effect now also where SET POLYGON has changed it since the bound edge,
log entry 38) marks a bound one and closes its open pulses (log entry 18). -/
def Obligations.PolygonLocksAndLosesLock : Prop :=
  ∀ s : State,
    let blanking := fun (t : State) => (s.blc.mask.getLsbD 1 = true → Blanked 0x02 .blanked s t) ∧
      (s.blc.mask.getLsbD 1 = false → t.blc = s.blc) ∧ t.lmn.measurement = none ∧
      (∀ c : Colour, (t.lmn.channels.get c).accCount = 0 ∧ (t.lmn.channels.get c).accSum = 0) ∧
      t.cpr.current.polygon = .acquiring ∧ CopyIsCurrent t
    (∀ n, 0 < n →
      let f := s.sen.beam
      let b := (advanceTo (s.clock + n * 1310720) s).sen.beam
      (f.shown = false → b = { f with run := 0 }) ∧
      (f.shown = true → b = { f with
        run := min 4 (f.run + n), fired := f.fired || decide (f.run < 4 ∧ 4 ≤ f.run + n) }) ∧
      (f.shown = true → f.fired = false → f.run < 4 →
        ((s.clock / 1310720 + (4 - f.run)) * 1310720, some (Instr.beamDetectEdge [])) ∈ waiting s)) ∧
    (∀ t0, s.stu.polygon = .acquiring → s.stu.periodStart = some t0 → s.stu.periodOverrun = false →
      let due := t0 + (s.stu.nominal + s.stu.nominal / 1000 + 1) * 1310720
      let before := reach due s
      (before.clock < due → exec .periodOverrun s = .next before) ∧
      (due ≤ before.clock → ∃ t, exec .periodOverrun s = .next t ∧ Came before s t ∧
        t.stu = { s.stu with runCount := 0, periodOverrun := true } ∧ Told s t ∧
        SameBut [.clock, .lrx, .sen, .lanes, .stu, .pfm, .cpr, .rtx] s t)) ∧
    (∀ t0, s.stu.polygon = .locked → s.stu.periodStart = some t0 → s.stu.periodOverrun = false →
      let due := t0 + (s.stu.nominal + s.stu.nominal / 200 + 1) * 1310720
      let before := reach due s
      (before.clock < due → exec .periodOverrun s = .next before) ∧
      (due ≤ before.clock → ∃ t, exec .periodOverrun s = .next t ∧ Came before s t ∧
        t.stu.polygon = .acquiring ∧ t.stu.runCount = 0 ∧ t.stu.acquireTimer = some (before.clock / 131072000000) ∧
        t.stu.periodOverrun = true ∧ blanking t)) ∧
    (∀ t0, s.stu.polygon = .acquiring → s.stu.acquireTimer = some t0 →
      let due := (t0 + s.stu.acquireLimit) * 131072000000
      due ≤ (reach due s).clock → ∃ t, exec .acquireTimeout s = .next t ∧ Came (reach due s) s t ∧
        t.stu = { s.stu with acquireFault := true, acquireTimer := none } ∧ Told s t ∧
        SameBut [.clock, .lrx, .sen, .lanes, .stu, .pfm, .cpr, .rtx] s t) ∧
    (s.stu.polygon = .acquiring → 64 ≤ s.stu.runCount → ∃ t, exec .polygonLock s = .next t ∧
      t.stu = { s.stu with polygon := .locked, acquireTimer := none, acquireFault := false } ∧ Told s t ∧
      MonitorAsked s t ∧ SameBut [.stu, .pfm, .cpr, .rtx] s t) ∧
    (∀ seen : Trace, (sense seen s).sen.beam.fired = true →
      let now := (sense seen s).clock
      (∀ last, s.stu.lastEdge = some last → s.stu.nominal / 2 < (now - last) / 1310720) →
      ∃ t, exec (.beamDetectEdge seen) s = .next t ∧ Sensed seen s t ∧ t.stu.lastEdge = some now ∧
        t.stu.edgeRun = min 12 (s.stu.edgeRun + 1) ∧
        (s.stu.polygon = .stopped → t.stu.polygon = .stopped ∧ t.stu.lastPeriod = s.stu.lastPeriod) ∧
        (s.stu.polygon ≠ .stopped → t.stu.periodStart = some now ∧ t.stu.periodOverrun = false) ∧
        (s.stu.polygon ≠ .locked → RequestMet now (sense seen s) t ∧ PulsesCut now (sense seen s) t) ∧
        (s.stu.polygon = .acquiring → s.stu.periodStart = none → t.stu.polygon = .acquiring ∧
          t.stu.runCount = s.stu.runCount ∧ t.stu.lastPeriod = s.stu.lastPeriod) ∧
        (∀ t0, s.stu.polygon = .acquiring → s.stu.periodStart = some t0 →
          let p := (now - t0) / 1310720
          t.stu.polygon = .acquiring ∧ t.stu.lastPeriod = p ∧
          t.stu.runCount =
            if s.stu.periodOverrun then s.stu.runCount
            else if ((p : Int) - s.stu.nominal).natAbs * 1000 ≤ s.stu.nominal then min 64 (s.stu.runCount + 1)
            else 0) ∧
        (∀ t0, s.stu.polygon = .locked → s.stu.periodStart = some t0 → s.stu.periodOverrun = false →
          s.stu.nominal < ((((now - t0) / 1310720 : Nat) : Int) - s.stu.nominal).natAbs * 200 →
          t.stu.polygon = .acquiring ∧ t.stu.runCount = 0 ∧ t.stu.lastPeriod = (now - t0) / 1310720 ∧
          t.stu.acquireTimer = some (now / 131072000000) ∧ blanking t ∧
          ∀ q : MonitorRequest, s.pfm.request = some q → ∃ q', t.pfm.request = some q' ∧
            (q.bound = none → q'.bound = some now) ∧
            ∀ edge, q.bound = some edge → now < edge + 4928 * 256 * s.stu.nominal → q'.sawEdge = true ∧
              (q.opened = true → q.sawBlank = false → q.sawLine = false → q.sawEdge = false →
                ∀ c : Colour, q.shots.get c ≠ none → (t.pfm.lanes.get c).pulseOpen = false)))

/-- O41. POLYGON_INDEX takes a filtered index where the trace has brought one (log entry 2). In HUNT an index opens
the first revolution, also while the polygon is STOPPED, when nothing is judged; on a running polygon each later
one adds a good revolution where the edge run is exactly 10 and sets the count to 0 otherwise; at 2
FACET_SYNC_GAINED makes it SYNCED. While SYNCED an index at edge run 10 only restarts the run; at another run
facet sync goes to HUNT with this index opening the new revolution, and EDGE_RUN_OVERFLOW at 12 edges takes it to
HUNT with none open. Both losses are the SYNC trigger, which reaches the blanking where it is enabled. The edge
run is 0 after every index. -/
def Obligations.IndexGainsAndLosesFacetSync : Prop :=
  ∀ (seen : Trace) (s : State),
    let blanking := fun (t : State) => (s.blc.mask.getLsbD 2 = true → Blanked 0x04 .blanked s t) ∧
      (s.blc.mask.getLsbD 2 = false → t.blc = s.blc) ∧ CopyIsCurrent t
    let e := sense seen s
    (e.sen.index.fired = false → exec (.polygonIndex seen) s = .next e) ∧
    (e.sen.index.fired = true → ∃ t, exec (.polygonIndex seen) s = .next t ∧ Sensed seen s t ∧
      t.sen = { e.sen with index := { e.sen.index with fired := false } } ∧
      let quiet := Told s t ∧ SameBut [.clock, .sen, .lrx, .lanes, .stu, .pfm, .cpr, .rtx] s t
      (s.stu.facetSync = .hunt → s.stu.polygon ≠ .stopped → quiet ∧ t.stu = { s.stu with
        edgeRun := 0, revOpen := true,
        goodRevs := if s.stu.revOpen then (if s.stu.edgeRun = 10 then min 2 (s.stu.goodRevs + 1) else 0)
                    else s.stu.goodRevs }) ∧
      (s.stu.facetSync = .hunt → s.stu.polygon = .stopped → quiet ∧
        t.stu = { s.stu with edgeRun := 0, revOpen := true }) ∧
      (s.stu.facetSync = .synced → s.stu.edgeRun = 10 → quiet ∧ t.stu = { s.stu with edgeRun := 0 }) ∧
      (s.stu.facetSync = .synced → s.stu.edgeRun ≠ 10 →
        t.stu.facetSync = .hunt ∧ t.stu.edgeRun = 0 ∧ t.stu.goodRevs = 0 ∧ t.stu.revOpen = true ∧
        t.stu.polygon = s.stu.polygon ∧ blanking t)) ∧
    (s.stu.facetSync = .synced → 12 ≤ s.stu.edgeRun → ∃ t, exec .edgeRunOverflow s = .next t ∧
      t.stu.facetSync = .hunt ∧ t.stu.edgeRun = s.stu.edgeRun ∧ t.stu.goodRevs = 0 ∧ t.stu.revOpen = false ∧
      t.stu.polygon = s.stu.polygon ∧ blanking t) ∧
    (s.stu.facetSync = .hunt → s.stu.polygon ≠ .stopped → 2 ≤ s.stu.goodRevs →
      ∃ t, exec .facetSyncGained s = .next t ∧ t.stu = { s.stu with facetSync := .synced } ∧ Told s t ∧
      MonitorAsked s t ∧ SameBut [.stu, .pfm, .cpr, .rtx] s t)

/-- O42. SET TRIM with any three arguments writes each, brought within -500..+500, into its lane's pending trim,
answers the three as written, CLAMPED exactly where some argument was out of range, and changes nothing else,
whatever the state, a frame EXPOSING or not. RESET UNIT keeps the pending trims, and the next exposure start
copies them into the trims in effect. [R73] -/
def Obligations.SetTrimWritesThePendingTrims : Prop :=
  ∀ (tag : Nat) (s : State),
    (∀ r g b : Int, -32768 ≤ r → r < 32768 → -32768 ≤ g → g < 32768 → -32768 ≤ b → b < 32768 →
      CommandReady tag 0x18 (beSigned r ++ beSigned g ++ beSigned b) s →
      let p : PerColour Int := ⟨max (-500) (min 500 r), max (-500) (min 500 g), max (-500) (min 500 b)⟩
      exec .setTrim s = .next ((answeredWith tag 0x18 (carriedOut (decide (p = ⟨r, g, b⟩))
          (beSigned p.red ++ beSigned p.green ++ beSigned p.blue)) s).withLanes
        ⟨{ s.lanes.red with pendingTrim := p.red }, { s.lanes.green with pendingTrim := p.green },
         { s.lanes.blue with pendingTrim := p.blue }⟩)) ∧
    (CommandReady tag 0x04 [] s → ∃ t, exec .resetUnit s = .next t ∧
      ∀ c : Colour, (t.lanes.get c).pendingTrim = (s.lanes.get c).pendingTrim) ∧
    (∀ (r : FrameRecord) (rest : List FrameRecord), s.fq.records = r :: rest → r.exposure = .positioning →
      r.step = some .homed → s.lmn.measurement = none → ∃ t, exec .exposureStart s = .next t ∧
      ∀ c : Colour, (t.lanes.get c).trim = (s.lanes.get c).pendingTrim ∧
        (t.lanes.get c).pendingTrim = (s.lanes.get c).pendingTrim)

/-- O43. For a duty d in 16..255, a guard G in 0..32 and the centred start a = floor((256 - d)/2): on a rung that
differs from the rung in effect the pulse lies at a..a+d-1 where a is at least G, at G..G+d-1 where that ends
within 255, and otherwise at G..255, which alone counts a guard truncation, loses G+d-256 ticks and keeps at least
224. On an equal rung, and so on the rung loaded at line start, it lies at a..a+d-1; a dark result has no pulse.
Every pulse lies within ticks 0..255. [R145] -/
def Obligations.RungGuardShiftsOrCutsAChangedRungsPulse : Prop :=
  ∀ (g d rung dac : Nat) (x y z : Bool) (pl : PulseLane), 16 ≤ d → d ≤ 255 → g ≤ 32 →
    let a := (256 - d) / 2
    let pl' := placeLane g pl (.pulse rung dac d x y z)
    let lies := fun (p q : Nat) => pl'.pulse = some (p, q) ∧ p ≤ q ∧ q ≤ 255
    (pl.rung.map Prod.fst ≠ some rung →
      pl'.rung = some (rung, dac) ∧ pl'.amplitude = dac ∧
      (g ≤ a → lies a (a + d - 1) ∧ pl'.truncations = pl.truncations) ∧
      (a < g → 193 ≤ d ∧
        (g + d - 1 ≤ 255 → lies g (g + d - 1) ∧ pl'.truncations = pl.truncations) ∧
        (255 < g + d - 1 → lies g 255 ∧ pl'.truncations = bump32 pl.truncations ∧
          (255 - g + 1) + (g + d - 256) = d ∧ 224 ≤ 255 - g + 1))) ∧
    (pl.rung.map Prod.fst = some rung → lies a (a + d - 1) ∧ pl'.truncations = pl.truncations ∧
      pl'.rung = pl.rung ∧ pl'.amplitude = pl.amplitude) ∧
    placeLane g pl .dark = { pl with pulse := none } ∧
    (∀ (s : State) (width r A : Nat) (c : Colour), firstRung s c width = some (r, A) →
      (preload s width c).rung = some (r, A) ∧ (preload s width c).truncations = (s.pfm.lanes.get c).truncations)

/-- O44. A colour needs a monitor pulse: in a measurement, at its rung's code, where its ladder has a rung of the step
and fewer than 64 samples; else CAPTURING, at its capture code, with fewer than 64 samples, the polygon LOCKED,
the latch clear and no record EXPOSING; else READY, at its capture code, with its drift loop running and the
retrace count at 7. MONITOR_WINDOW_START lets time pass to 4672 pixel periods after the edge (moments of ticks,
log entry 26, computed from the N in effect now, also where SET POLYGON has changed it since the edge, log entry
38); there, with the latch clear, no line being placed and no edge come early (log entry 18), each named colour
opens at its code, and otherwise none does. MONITOR_WINDOW_END lets time pass to 4928; where time does not reach
that moment it keeps the averages it brings, of which the first stand. Time does not pass the window's end without
its step, which for a withheld pulse needs no averages (log entries 2 and 3). The request becomes absent and the
next is composed. The result is FIRED, or NOT_FIRED with BLANKED, else LINE, else EDGE. A FIRED pulse's outputs
close and return to the rung in effect, and each reading, limited to 0..4095, is added to its capture, drift or
step sum while that use applies, counts standing at 64 and 16 (log entry 1); after NOT_FIRED nothing of the Laser
Monitor changes. -/
def Obligations.MonitorWindowFiresTheRequestAndUsesItsReadings : Prop :=
  (∀ (c : Colour) (s : State),
    let ch := s.lmn.channels.get c
    (∀ m, s.lmn.measurement = some m →
      (∀ g, ((profile s m.slot).plt.get c).rungs[m.step]? = some g → m.count.get c < 64 →
        neededShot s c = some ⟨g.dac, .measure⟩) ∧
      (((profile s m.slot).plt.get c).rungs.length ≤ m.step ∨ 64 ≤ m.count.get c → neededShot s c = none)) ∧
    (s.lmn.measurement = none →
      let clear := s.stu.polygon = .locked ∧ s.blc.latch = false
      let captures := ch.state = .capturing ∧ clear ∧ isExposing s = false ∧ ch.captureCount < 64
      let drifts := ch.state = .ready ∧ clear ∧ s.lmn.retraceCount = 7
      (captures → neededShot s c = some ⟨ch.captureCode.getD 0, .capture⟩) ∧
      (drifts → neededShot s c = some ⟨ch.captureCode.getD 0, .drift⟩) ∧
      (¬ captures → ¬ drifts → neededShot s c = none))) ∧
  ∀ (q : MonitorRequest) (e : Nat) (s : State), s.pfm.request = some q → q.bound = some e →
    (q.opened = false →
      let m := e + 4672 * 256 * s.stu.nominal
      let shown := s.blc.latch = false ∧ s.pfm.line = none ∧ q.sawEdge = false
      let before := reach m s
      (before.clock < m → exec .monitorWindowStart s = .next before) ∧
      (m ≤ before.clock → ∃ t, exec .monitorWindowStart s = .next t ∧ Came before s t ∧
        t.pfm.request = some { q with opened := true, sawBlank := s.blc.latch, sawLine := s.pfm.line.isSome } ∧
        (shown → ∀ c : Colour, t.pfm.lanes.get c = match q.shots.get c with
          | some shot => { s.pfm.lanes.get c with amplitude := shot.dac, pulseOpen := true }
          | none => s.pfm.lanes.get c) ∧
        (¬ shown → t.pfm.lanes = before.pfm.lanes) ∧
        t.pfm.line = before.pfm.line ∧ t.lanes = before.lanes ∧ t.sen = before.sen ∧
        SameBut [.clock, .lrx, .sen, .lanes, .pfm] s t)) ∧
    (q.opened = true → ∀ brought : PerColour Int,
      let average := q.brought.getD brought
      let m := e + 4928 * 256 * s.stu.nominal
      let before := reach m (s.withPfm { s.pfm with request := some { q with brought := some average } })
      let fired := q.sawBlank = false ∧ q.sawLine = false ∧ q.sawEdge = false
      let reading := fun c => (max 0 (min 4095 (average.get c))).toNat
      let use := fun c => (q.shots.get c).map MonitorShot.use
      let ch := fun c => s.lmn.channels.get c
      (fired → windowResult q average = .fired average) ∧
      (¬ fired → windowResult q average =
        .notFired (if q.sawBlank then .blanked else if q.sawLine then .line else .edge)) ∧
      (fired → (m, q.brought.map Instr.monitorWindowEnd) ∈ waiting s) ∧
      (¬ fired → (m, some (Instr.monitorWindowEnd ⟨0, 0, 0⟩)) ∈ waiting s) ∧
      (before.clock < m → exec (.monitorWindowEnd brought) s = .next before) ∧
      (m ≤ before.clock →
      ∃ t, exec (.monitorWindowEnd brought) s = .next t ∧ Came before s t ∧ t.sen = before.sen ∧ RequestComposed t ∧
        (¬ fired → t.pfm.lanes = before.pfm.lanes ∧ t.lmn = s.lmn) ∧
        (fired → ∀ c : Colour,
          t.pfm.lanes.get c = (if (q.shots.get c).isSome then
            { before.pfm.lanes.get c with
              pulseOpen := false, pulse := none,
              amplitude := if s.blc.latch then 0 else rungCode (before.pfm.lanes.get c) }
            else before.pfm.lanes.get c) ∧
          t.lmn.channels.get c =
            (if use c = some .capture ∧ (ch c).state = .capturing ∧ (ch c).captureCount < 64 then
              { ch c with captureCount := (ch c).captureCount + 1, captureSum := (ch c).captureSum + reading c }
            else if use c = some .drift ∧ (ch c).state = .ready ∧ s.blc.latch = false ∧
                s.stu.polygon = .locked ∧ s.lmn.measurement = none ∧ (ch c).accCount < 16 then
              { ch c with
                accCount := (ch c).accCount + 1
                accSum := (ch c).accSum + (((ch c).reference.getD 0 : Int) - reading c) }
            else ch c)) ∧
        (fired → ∀ w, s.lmn.measurement = some w → ∃ w', t.lmn.measurement = some w' ∧
          w'.slot = w.slot ∧ w'.step = w.step ∧ w'.measured = w.measured ∧
          ∀ c : Colour,
            (use c = some .measure ∧ w.count.get c < 64 →
              w'.count.get c = w.count.get c + 1 ∧ w'.sum.get c = w.sum.get c + reading c) ∧
            (¬ (use c = some .measure ∧ w.count.get c < 64) →
              w'.count.get c = w.count.get c ∧ w'.sum.get c = w.sum.get c)) ∧
        t.lmn = { s.lmn with channels := t.lmn.channels, measurement := t.lmn.measurement } ∧
        (s.lmn.measurement = none → t.lmn.measurement = none) ∧
        t.pfm.line = before.pfm.line ∧ t.lanes = before.lanes ∧ Told s t ∧
        SameBut [.clock, .lrx, .sen, .lanes, .pfm, .lmn, .cpr, .rtx] s t))

/-- O45. A set that names no colour, or has a bit above 2, is refused with BAD_ARGUMENT. LASER ON takes each named OFF
channel to WARMING with its timer started, and leaves every other channel as it is. LASER OFF is refused with BUSY
while a record is EXPOSING or a measurement runs; otherwise each named channel not OFF goes OFF with its timer,
samples, accumulator, last mean and beyond flag gone and its drift, epoch, reference and capture code kept, and
the readings of a held request for a named colour will not be used. Both answer each colour's state before and
after, drift and epoch. -/
def Obligations.LaserOnAndOffChangeTheNamedChannels : Prop :=
  ∀ (tag : Nat) (b : Byte) (s : State),
    let named := fun c : Colour => match c with | .red => b[0] | .green => b[1] | .blue => b[2]
    let good := b ≠ 0 ∧ b.toNat < 8
    let data := fun (t : State) => [Colour.red, .green, .blue].flatMap fun c =>
      be1 (channelCode (s.lmn.channels.get c).state) ++ be1 (channelCode (t.lmn.channels.get c).state) ++
      beSigned (t.lmn.channels.get c).drift ++ be2 (t.lmn.channels.get c).epoch
    (CommandReady tag 0x38 [b] s →
      (¬ good → exec .laserOn s = .next (answeredWith tag 0x38 (refused .badArgument) s)) ∧
      (good → ∃ t, exec .laserOn s = .next t ∧
        (∀ c : Colour, t.lmn.channels.get c =
          if named c = true ∧ (s.lmn.channels.get c).state = .off then
            { s.lmn.channels.get c with state := .warming, warmStart := some (timebase s) }
          else s.lmn.channels.get c) ∧
        t.lmn = { s.lmn with channels := t.lmn.channels } ∧
        Told (answeredWith tag 0x38 (accepted (data t)) s) t ∧ MonitorAsked s t ∧
        SameBut [.cpr, .rtx, .pfm, .lmn] s t)) ∧
    (CommandReady tag 0x39 [b] s →
      (¬ good → exec .laserOff s = .next (answeredWith tag 0x39 (refused .badArgument) s)) ∧
      (good → isExposing s = true ∨ s.lmn.measurement.isSome = true →
        exec .laserOff s = .next (answeredWith tag 0x39 (refused .busy) s)) ∧
      (good → isExposing s = false → s.lmn.measurement = none → ∃ t, exec .laserOff s = .next t ∧
        (∀ c : Colour, t.lmn.channels.get c =
          if named c = true ∧ (s.lmn.channels.get c).state ≠ .off then
            { s.lmn.channels.get c with
              state := .off, warmStart := none, captureCount := 0, captureSum := 0, accCount := 0, accSum := 0,
              lastMean := none, beyond := false }
          else s.lmn.channels.get c) ∧
        t.lmn = { s.lmn with channels := t.lmn.channels } ∧
        (∀ q, s.pfm.request = some q → ∃ q', t.pfm.request = some q' ∧ q'.bound = q.bound ∧
          q'.opened = q.opened ∧ ∀ c : Colour, q'.shots.get c =
            if named c = true then (q.shots.get c).map (fun shot => { shot with use := .ended })
            else q.shots.get c) ∧
        (s.pfm.request = none → RequestComposed t) ∧
        t.pfm = { s.pfm with request := t.pfm.request } ∧
        Told (answeredWith tag 0x39 (accepted (data t)) s) t ∧ SameBut [.cpr, .rtx, .pfm, .lmn] s t))

/-- O46. The codes, monitor offsets, warm-up interval and drift limit are written within their ranges and answered. A
WARMING channel whose time has reached the new interval goes CAPTURING within the command's step, at its new
reference code, with no samples (log entry 9); a channel with a last mean has its beyond flag judged against the
new limit. Where a flag goes from clear to set and DRIFT is an enabled source, the DRIFT trigger reaches the
blanking, and a latch that was clear then empties every accumulator; nothing else of a channel changes, and
without the trigger nothing but the Laser Monitor does. -/
def Obligations.LaserSetupTakesEffectAtOnce : Prop :=
  ∀ (tag r g b w d : Nat) (x y z : Int) (s : State), r < 65536 → g < 65536 → b < 65536 → w < 65536 → d < 65536 →
    -32768 ≤ x → x < 32768 → -32768 ≤ y → y < 32768 → -32768 ≤ z → z < 32768 →
    CommandReady tag 0x3A (be2 r ++ be2 g ++ be2 b ++ beSigned x ++ beSigned y ++ beSigned z ++ be2 w ++ be2 d) s →
    let codes : PerColour Nat := ⟨min 4095 r, min 4095 g, min 4095 b⟩
    let lim := fun i : Int => max (-2048) (min 2047 i)
    let offsets : PerColour Int := ⟨lim x, lim y, lim z⟩
    let warm := max 1 (min 600 w)
    let limitMl := max 20 (min 250 d)
    let asGiven := decide (codes = ⟨r, g, b⟩ ∧ offsets = ⟨x, y, z⟩ ∧ warm = w ∧ limitMl = d)
    let data := be2 codes.red ++ be2 codes.green ++ be2 codes.blue ++ beSigned offsets.red ++
      beSigned offsets.green ++ beSigned offsets.blue ++ be2 warm ++ be2 limitMl
    let ch := fun c => s.lmn.channels.get c
    let beyond := fun c => match (ch c).lastMean with
      | some mean => decide (limitMl < mean.natAbs)
      | none => (ch c).beyond
    let warmOver := fun c => (ch c).state = .warming ∧ ∃ t0, (ch c).warmStart = some t0 ∧
      t0 + 1000 * warm ≤ timebase s
    let triggered := s.blc.mask.getLsbD 4 = true ∧ ∃ c, (ch c).beyond = false ∧ beyond c = true
    let written := fun (c : Colour) (n : Nat) (sum : Int) => { ch c with
      refCode := codes.get c, monitorOffset := offsets.get c, beyond := beyond c, accCount := n, accSum := sum }
    let s1 := answeredWith tag 0x3A (carriedOut asGiven data) s
    ∃ t, exec .setLaserSetup s = .next t ∧
      t.lmn.warmInterval = warm ∧ t.lmn.driftLimit = limitMl ∧ t.lmn.retraceCount = s.lmn.retraceCount ∧
      (∀ c : Colour, ∃ (n : Nat) (sum : Int),
        (triggered → s.blc.latch = false → n = 0 ∧ sum = 0) ∧
        (¬ (triggered ∧ s.blc.latch = false) → n = (ch c).accCount ∧ sum = (ch c).accSum) ∧
        (¬ warmOver c → t.lmn.channels.get c = written c n sum) ∧
        (warmOver c → t.lmn.channels.get c = { written c n sum with
          state := .capturing, warmStart := none, captureCode := some (codes.get c), captureCount := 0,
          captureSum := 0 })) ∧
      (triggered → Blanked 0x10 .blanked s t) ∧
      (¬ (triggered ∧ s.blc.latch = false) → t.lmn.measurement = s.lmn.measurement ∧ t.lmn.value = s.lmn.value ∧
        MonitorAsked s t ∧ SameBut [.cpr, .rtx, .pfm, .lmn, .blc] s t) ∧
      (¬ triggered → t.blc = s.blc) ∧ Noticed s1 t ∧ CopyIsCurrent t

/-- O47. At the warm-up's end, its interval after its start on the millisecond timebase, to which WARM_UP_END lets
time pass (log entry 2), a WARMING channel goes CAPTURING with the current reference code as its capture code and
no samples. With 64 samples, and no record EXPOSING, a CAPTURING channel goes READY: the reference is the sum over
64 rounded half up, the drift 0, the epoch one more from 65535 to 0, the accumulator empty, the last mean absent
and the beyond flag clear. While a record is EXPOSING the capture does not complete, so that the epoch holds
through the exposure. The other channels stay. -/
def Obligations.WarmUpEndsInCaptureAndCaptureInReady : Prop :=
  ∀ (c : Colour) (s : State),
    let ch := s.lmn.channels.get c
    (∀ t0, ch.state = .warming → ch.warmStart = some t0 →
      let due := (t0 + 1000 * s.lmn.warmInterval) * 131072000000
      let before := reach due s
      (before.clock < due → exec (.warmUpEnd c) s = .next before) ∧
      (due ≤ before.clock → ∃ t, exec (.warmUpEnd c) s = .next t ∧ Came before s t ∧
      t.lmn = { s.lmn with channels := s.lmn.channels.set c { ch with
        state := .capturing, warmStart := none, captureCode := some ch.refCode, captureCount := 0,
        captureSum := 0 } } ∧
      Told s t ∧ SameBut [.clock, .lrx, .sen, .lanes, .lmn, .pfm, .cpr, .rtx] s t)) ∧
    (ch.state = .capturing → 64 ≤ ch.captureCount → isExposing s = false →
      ∃ t, exec (.captureComplete c) s = .next t ∧
      t.lmn = { s.lmn with channels := s.lmn.channels.set c { ch with
        state := .ready, reference := some ((ch.captureSum + 32) / 64), drift := 0,
        epoch := (ch.epoch + 1) % 65536, accCount := 0, accSum := 0, lastMean := none, beyond := false } } ∧
      Told s t ∧ MonitorAsked s t ∧ SameBut [.lmn, .pfm, .cpr, .rtx] s t) ∧
    (isExposing s = true → exec (.captureComplete c) s = .next s)

/-- O48. With 16 samples in a colour's accumulator the mean is their sum over 16 rounded half away from zero and
becomes the last mean, drift_c moves toward it by at most 2 and is limited to -250..+250, the accumulator is
emptied, and the beyond flag is set exactly where the mean exceeds the drift limit. A flag that goes from clear to
set with DRIFT enabled is the DRIFT trigger: a set latch takes DRIFT among its causes, a clear one is set and
blanks; otherwise nothing but this channel changes. A correction within -250..+250 stays within it and changes by
at most 2, and a capture's 0 is no update. [R160] -/
def Obligations.DriftUpdateMovesTheCorrectionByAtMostTwo : Prop :=
  ∀ (c : Colour) (s : State), 16 ≤ (s.lmn.channels.get c).accCount →
    let ch := s.lmn.channels.get c
    let mean := if 0 ≤ ch.accSum then (2 * ch.accSum + 16) / 32 else -((2 * (-ch.accSum) + 16) / 32)
    let moved := if ch.drift < mean then ch.drift + min 2 (mean - ch.drift)
      else if mean < ch.drift then ch.drift - min 2 (ch.drift - mean) else ch.drift
    let drift := max (-250) (min 250 moved)
    let beyond := decide (s.lmn.driftLimit < mean.natAbs)
    let after : Channel :=
      { ch with drift := drift, lastMean := some mean, beyond := beyond, accCount := 0, accSum := 0 }
    let triggered := ch.beyond = false ∧ beyond = true ∧ s.blc.mask.getLsbD 4 = true
    ∃ t, exec (.driftUpdate c) s = .next t ∧ t.lmn.channels.get c = after ∧
      (∀ o : Colour, (t.lmn.channels.get o).drift = if o = c then drift else (s.lmn.channels.get o).drift) ∧
      (-250 ≤ drift ∧ drift ≤ 250) ∧
      (-250 ≤ ch.drift → ch.drift ≤ 250 → drift - ch.drift ≤ 2 ∧ ch.drift - drift ≤ 2) ∧
      (triggered → Blanked 0x10 .blanked s t) ∧
      (¬ triggered → t.lmn = { s.lmn with channels := s.lmn.channels.set c after } ∧ Told s t ∧
        MonitorAsked s t ∧ SameBut [.lmn, .pfm, .cpr, .rtx] s t) ∧
      CopyIsCurrent t

/-- O49. A slot that names nothing is BAD_ARGUMENT, a measurement running or a record EXPOSING is BUSY, a pinned slot
SLOT_PINNED, and a slot not VALID or INCOMPLETE, without PLT, or a channel not READY, a polygon not LOCKED or a
set latch BAD_STATE, in that order; a refusal changes nothing. Otherwise the slot goes MEASURING with its prior
state kept, the measurement runs from step 0 with nothing counted, every accumulator is emptied, and the answer
gives the slot, the number of steps and the rung counts. -/
def Obligations.MeasureLadderChecksInOrderAndBegins : Prop :=
  ∀ (tag : Nat) (b : Byte) (s : State), CommandReady tag 0x3B [b] s →
    let turnedAway := fun (r : Reason) => exec .measureLadder s = .next (answeredWith tag 0x3B (refused r) s)
    (2 ≤ b.toNat → turnedAway .badArgument) ∧
    ∀ n : Fin 2, b.toNat = n.val →
      let p := profile s n
      let rungs := fun c => (p.plt.get c).rungs.length
      let busy := s.lmn.measurement.isSome = true ∨ isExposing s = true
      let unfit := (p.state ≠ .valid ∧ p.state ≠ .incomplete) ∨ p.kinds.plt = false ∨
        (∃ c, (s.lmn.channels.get c).state ≠ .ready) ∨ s.stu.polygon ≠ .locked ∨ s.blc.latch = true
      (busy → turnedAway .busy) ∧
      (¬ busy → 0 < p.pins → turnedAway .slotPinned) ∧
      (¬ busy → p.pins = 0 → unfit → turnedAway .badState) ∧
      (¬ busy → p.pins = 0 → ¬ unfit → ∃ t, exec .measureLadder s = .next t ∧
        profile t n = { p with
          state := .measuring, prior := some (if p.state = .valid then .valid else .incomplete) } ∧
        (∀ o : Fin 2, o ≠ n → profile t o = profile s o) ∧ t.pst.session = s.pst.session ∧
        t.lmn = { s.lmn with
          channels := ⟨{ s.lmn.channels.red with accCount := 0, accSum := 0 },
                       { s.lmn.channels.green with accCount := 0, accSum := 0 },
                       { s.lmn.channels.blue with accCount := 0, accSum := 0 }⟩
          measurement := some { slot := n, step := 0, count := ⟨0, 0, 0⟩, sum := ⟨0, 0, 0⟩,
                                measured := ⟨[], [], []⟩ }
          value := .running n } ∧
        Told (answeredWith tag 0x3B (accepted (be1 n.val ++
          be2 (max (rungs .red) (max (rungs .green) (rungs .blue))) ++ be2 (rungs .red) ++ be2 (rungs .green) ++
          be2 (rungs .blue))) s) t ∧ MonitorAsked s t ∧ SameBut [.cpr, .rtx, .pst, .pfm, .lmn] s t)

/-- O50. When every colour with a rung of the step has 64 samples, its measured power is the sum over 64 rounded half
up plus its monitor offset, limited to 0..4095. Before the last rung number the measurement goes to the next step
with nothing counted. After the last the measured ladder is ACCEPTED where each colour's powers fall by 1 to 300
mL at every rung: the powers are stored with the current drift and epoch as stamp and epoch. Otherwise the first
failure, by colour red, green, blue and then by rung, rejects it and the ladders stay: ORDER where the power does
not fall, SPACING where it falls by more than 300 mL; the value keeps the colour (log entry 12). Either way the
slot returns to its prior state and the measurement is idle. -/
def Obligations.MeasurementStepFormsPowersAndTheLastOneValidates : Prop :=
  ∀ (m : Measurement) (s : State), s.lmn.measurement = some m →
    let p := profile s m.slot
    let rungs := fun c => (p.plt.get c).rungs
    let most := max (rungs .red).length (max (rungs .green).length (rungs .blue).length)
    (∀ c : Colour, m.step < (rungs c).length → 64 ≤ m.count.get c) →
    let power := fun c => (max 0 (min 4095 ((((m.sum.get c + 32) / 64 : Nat) : Int) +
      (s.lmn.channels.get c).monitorOffset))).toNat
    let measured := fun c => if m.step < (rungs c).length then m.measured.get c ++ [power c] else m.measured.get c
    let fall := fun (p q : Nat) => q < p ∧ p - q ≤ 300
    let falls := fun (l : List Nat) (n : Nat) => ∀ (i p q : Nat), i < n → l[i]? = some p → l[i + 1]? = some q → fall p q
    let whole := fun (c : Colour) => falls (measured c) (measured c).length
    let before := fun (c : Colour) => match c with
      | .red => ([] : List Colour) | .green => [.red] | .blue => [.red, .green]
    ∃ t, exec .measurementStepComplete s = .next t ∧ Told s t ∧
      (m.step + 1 < most → t.lmn = { s.lmn with
          measurement := some { slot := m.slot, step := m.step + 1, count := ⟨0, 0, 0⟩, sum := ⟨0, 0, 0⟩,
                                measured := ⟨measured .red, measured .green, measured .blue⟩ } } ∧
        MonitorAsked s t ∧ SameBut [.lmn, .pfm, .cpr, .rtx] s t) ∧
      (most ≤ m.step + 1 →
        t.lmn.measurement = none ∧ t.lmn = { s.lmn with measurement := none, value := t.lmn.value } ∧
        SameBut [.pst, .lmn, .pfm, .cpr, .rtx] s t ∧ t.pst.session = s.pst.session ∧
        (∀ o : Fin 2, o ≠ m.slot → profile t o = profile s o) ∧
        (∀ prior, p.prior = some prior → (profile t m.slot).prior = none ∧
          (profile t m.slot).state = match prior with | .valid => .valid | .incomplete => .incomplete) ∧
        (profile t m.slot).cdt = p.cdt ∧ (profile t m.slot).sct = p.sct ∧
        (profile t m.slot).compiled = p.compiled ∧ (profile t m.slot).kinds = p.kinds ∧
        (profile t m.slot).pins = p.pins ∧
        ((∀ c, whole c) → t.lmn.value = .result .accepted m.slot ∧
          ∀ c : Colour, (profile t m.slot).plt.get c =
            { rungs := (rungs c).zipWith (fun g w => { g with power := w }) (measured c)
              stamp := (s.lmn.channels.get c).drift, epoch := (s.lmn.channels.get c).epoch }) ∧
        (∀ (c : Colour) (i x y : Nat), (∀ e ∈ before c, whole e) → falls (measured c) i →
          (measured c)[i]? = some x → (measured c)[i + 1]? = some y → ¬ fall x y →
          (profile t m.slot).plt = p.plt ∧
          t.lmn.value = .result (if x ≤ y then .rejectedOrder c else .rejectedSpacing c) m.slot))

/-- O51. ADVANCE is refused with BUSY while a record is POSITIONING or EXPOSING or the transport ADVANCING or
SETTLING, and with BAD_STATE in FAULT. Otherwise the transport goes ADVANCING in stage return with origin COMMAND
and the perfs, limited to 1..16, in its counter; motor and pins stay, and homing is requested. TRANSPORT CLEAR in
FAULT makes it UNREGISTERED with no cause, the pins out, the motor off and the stage as it was; in any other state
it is BAD_STATE. Each answers the state before, the stage state and the position (as they stand after the command,
log entry 12). -/
def Obligations.AdvanceBeginsAndClearLeavesAFault : Prop :=
  ∀ (tag : Nat) (s : State),
    let stage := fun (f : Ftc) => be1 (stageCode f.stage) ++ (f.position.map be2).getD []
    (∀ b : Byte, CommandReady tag 0x40 [b] s →
      let busy := (∃ r ∈ s.fq.records, r.exposure = .positioning ∨ r.exposure = .exposing) ∨
        s.ftc.state = .advancing ∨ s.ftc.state = .settling
      let perfs := max 1 (min 16 b.toNat)
      (busy → exec .advance s = .next (answeredWith tag 0x40 (refused .busy) s)) ∧
      (¬ busy → s.ftc.state = .fault → exec .advance s = .next (answeredWith tag 0x40 (refused .badState) s)) ∧
      (¬ busy → s.ftc.state ≠ .fault → ∃ t, exec .advance s = .next t ∧
        t.ftc = { s.ftc with
          state := .advancing, phase := some .stageReturn, origin := some .command, counter := perfs,
          stage := t.ftc.stage, position := t.ftc.position, stageTimer := t.ftc.stageTimer,
          homeWaiting := t.ftc.homeWaiting } ∧
        (s.ftc.stage = .idle ∨ s.ftc.stage = .unknown → t.ftc.stage = .homing ∧
          t.ftc.stageTimer = some (timebase s) ∧ t.ftc.homeWaiting = false ∧
          ∀ x, s.ftc.position = some x → t.ftc.position = some x) ∧
        (s.ftc.stage = .stepping → t.ftc = { s.ftc with
          state := .advancing, phase := some .stageReturn, origin := some .command, counter := perfs,
          homeWaiting := true }) ∧
        (s.ftc.stage = .homing → t.ftc = { s.ftc with
          state := .advancing, phase := some .stageReturn, origin := some .command, counter := perfs }) ∧
        Told (answeredWith tag 0x40 (carriedOut (decide (perfs = b.toNat))
          (be1 perfs ++ be1 (transportCode s.ftc.state) ++ stage t.ftc)) s) t ∧
        MonitorAsked s t ∧ SameBut [.free, .cpr, .rtx, .pfm, .ftc] s t)) ∧
    (CommandReady tag 0x41 [] s →
      (s.ftc.state = .fault → ∃ t, exec .transportClear s = .next t ∧
        t.ftc = { s.ftc with state := .unregistered, faultCause := none, pinsIn := false, motor := false } ∧
        Told (answeredWith tag 0x41 (accepted (be1 4 ++ be1 0 ++ stage s.ftc)) s) t ∧ MonitorAsked s t ∧
        SameBut [.cpr, .rtx, .pfm, .ftc] s t) ∧
      (s.ftc.state ≠ .fault → exec .transportClear s = .next (answeredWith tag 0x41
        ⟨.refused, some .badState,
         be1 (transportCode s.ftc.state) ++ be1 (transportCode s.ftc.state) ++ stage s.ftc⟩ s)))

/-- O52. The sensors are sampled every 100th count, and four samples in a row that differ from a filtered level change
it: a perf edge is a change to active. In a film run a perf edge takes one from the counter and restarts the perf
timer; elsewhere it is not used. At 0 the motor stops, the pins enter and the transport goes SETTLING, and the
settle timer starts, as it does at the moment of the last edge, which time does not pass without both (log entry
2). At the perf timeout it goes to FAULT with STALL. At the settle's end it goes REGISTERED where the filtered pin
state is engaged, and to FAULT with PIN where not; REGISTERED is reported before a record goes on: one whose
advance it was requests homing, one that waited for the transport requests its own advance, or homing. A change of
the pin state to not engaged faults a REGISTERED transport with PIN and no other. A FAULT stops timers and motor,
keeps the pin drive, is the TRANSPORT trigger, and aborts a POSITIONING or EXPOSING record with TRANSPORT. The
counts at which they sample and how the filters start are log entry 7, that time passes no edge, change or end of
a timer without its row log entry 2, that the settle end so reads the pin state of its own moment log entry 8, and
that a NOTICE takes a free entry also where a REPORT waits log entry 40. -/
def Obligations.FilmRunCountsSettlesAndRegisters : Prop :=
  ∀ (seen : Trace) (s : State),
    let e := sense seen s
    let faults := fun (t : State) (cause : FaultCause) => FaultSignalled s t ∧ t.ftc = { s.ftc with
      state := .fault, faultCause := some cause, phase := none, origin := none, counter := 0,
      perfTimer := none, settleTimer := none, motor := false }
    (∀ n : Nat,
      let k := (s.clock + n * 1310720) / 131072000 - s.clock / 131072000
      let u := advanceTo (s.clock + n * 1310720) s
      let sampled := fun (f g : LevelFilter) (used : Bool) (row : Instr) =>
        (k = 0 → g = f) ∧ (0 < k → f.shown = f.level → g = { f with run := 0 }) ∧
        (0 < k → f.shown ≠ f.level → f.run + k < 4 → g = { f with run := f.run + k }) ∧
        (0 < k → f.shown ≠ f.level → 4 ≤ f.run + k → g = { f with
          level := f.shown, run := 0, fired := f.fired || f.shown == used }) ∧
        (f.fired = true → (s.clock, some row) ∈ waiting s) ∧
        (f.fired = false → f.run < 4 → f.shown ≠ f.level → f.shown = used →
          ((s.clock / 131072000 + (4 - f.run)) * 131072000, some row) ∈ waiting s)
      sampled s.sen.perf u.sen.perf true (.perfEdge []) ∧ sampled s.sen.pin u.sen.pin false (.pinDisengaged []) ∧
      sampled s.sen.stageDone u.sen.stageDone true
        (if s.ftc.stage = .stepping then .stepDone [] else .homingDone []) ∧
      ∀ b : Bool, (inputComes (.pin b) s).sen = { s.sen with pin := { s.sen.pin with shown := b } } ∧
        (inputComes (.perf b) s).sen = { s.sen with perf := { s.sen.perf with shown := b } } ∧
        (inputComes (.stageDone b) s).sen = { s.sen with stageDone := { s.sen.stageDone with shown := b } }) ∧
    (e.sen.perf.fired = false → exec (.perfEdge seen) s = .next e) ∧
    (e.sen.perf.fired = true →
      let met := e.withSen { e.sen with perf := { e.sen.perf with fired := false } }
      (s.ftc.state = .advancing → s.ftc.phase = some .filmRun → 0 < s.ftc.counter →
        exec (.perfEdge seen) s = .next (met.withFtc { s.ftc with
          counter := s.ftc.counter - 1, perfTimer := some (e.clock / 131072000000) })) ∧
      (s.ftc.state ≠ .advancing ∨ s.ftc.phase ≠ some .filmRun ∨ s.ftc.counter = 0 →
        exec (.perfEdge seen) s = .next met)) ∧
    (s.ftc.state = .advancing → s.ftc.phase = some .filmRun → s.ftc.counter = 0 →
      ∃ t, exec .perfCountZero s = .next t ∧ t.ftc = { s.ftc with
        state := .settling, phase := none, motor := false, pinsIn := true, perfTimer := none,
        settleTimer := some (timebase s) } ∧
      Told s t ∧ MonitorAsked s t ∧ SameBut [.ftc, .pfm, .cpr, .rtx] s t) ∧
    (∀ t0, s.ftc.state = .advancing → s.ftc.phase = some .filmRun → 0 < s.ftc.counter →
      s.ftc.perfTimer = some t0 →
      let due := (t0 + s.ftc.perfTimeout) * 131072000000
      let before := reach due s
      (before.clock < due → exec .perfTimeout s = .next before) ∧
      (due ≤ before.clock → ∃ t, exec .perfTimeout s = .next t ∧
        Came before s t ∧ t.sen = before.sen ∧ faults t .stall)) ∧
    (∀ t0, s.ftc.state = .settling → s.ftc.settleTimer = some t0 →
      let due := (t0 + s.ftc.settleInterval) * 131072000000
      let before := reach due e
      (before.clock < due → exec (.settleEnd seen) s = .next before) ∧
      (due ≤ before.clock → ∃ t, exec (.settleEnd seen) s = .next t ∧ Came before s t ∧
      (before.sen.pin.level = false → faults t .pin ∧ t.sen = before.sen) ∧
      (before.sen.pin.level = true → Told s t ∧ t.sen = before.sen ∧
        ((∀ r ∈ s.fq.records, r.exposure ≠ .positioning) →
          t.ftc = { s.ftc with state := .registered, origin := none, settleTimer := none } ∧
          t.fq = s.fq ∧ SameBut [.clock, .sen, .lrx, .lanes, .ftc, .pfm, .cpr, .rtx] s t) ∧
        (∀ r rest, s.fq.records = r :: rest → (∀ q ∈ rest, q.fsn ≠ r.fsn) → r.exposure = .positioning →
          let homing := t.ftc.state = .registered ∧ t.ftc.origin = none ∧
            t.fq = { s.fq with records := { r with step := some .homing } :: rest }
          t.ftc.settleTimer = none ∧
          (r.step = some .advancing → s.ftc.origin = some (.frame r.fsn) → homing) ∧
          (r.step = some .waitTransport → r.advance = 0 → homing) ∧
          (r.step = some .waitTransport → 0 < r.advance →
            t.ftc.state = .advancing ∧ t.ftc.phase = some .stageReturn ∧ t.ftc.origin = some (.frame r.fsn) ∧
            t.ftc.counter = r.advance ∧
            t.fq = { s.fq with records := { r with step := some .advancing } :: rest } ∧
            (s.cpr.current.transport ≠ .registered → condIn s.cpr.latch .transport = false →
              (unsent s.rtx).any isNotice = false → s.cpr.waitingNotice = none → s.rtx.entries.length < 32 →
              ∃ n : Notice, t.rtx.entries[s.rtx.entries.length]? = some (.block (.notice n)) ∧
                n.values.transport = .registered ∧ condIn n.changed .transport = true)) ∧
          ((r.step = some .advancing ∧ s.ftc.origin = some (.frame r.fsn)) ∨ r.step = some .waitTransport →
            (s.ftc.stage ≠ .stepping → t.ftc.stage = .homing) ∧
            (s.ftc.stage = .idle ∨ s.ftc.stage = .unknown → t.ftc.stageTimer = some (before.clock / 131072000000)) ∧
            (s.ftc.stage = .stepping → t.ftc.stage = .stepping ∧ t.ftc.homeWaiting = true)))))) ∧
    (e.sen.pin.fired = false → exec (.pinDisengaged seen) s = .next e) ∧
    (e.sen.pin.fired = true →
      let sensors := { e.sen with pin := { e.sen.pin with fired := false } }
      (s.ftc.state = .registered → ∃ t, exec (.pinDisengaged seen) s = .next t ∧ faults t .pin ∧
        Sensed seen s t ∧ t.sen = sensors) ∧
      (s.ftc.state ≠ .registered → exec (.pinDisengaged seen) s = .next (e.withSen sensors)))

/-- O53. HOMING_DONE takes a done indication, where the trace has brought one (log entry 2), of a stage that is not
STEPPING: a HOMING stage becomes IDLE at position 0, the film run of an advance in stage return starts at the
indication's time, and the waiting record is taken to homed; on any other it is not used. STEP_DONE takes that of
a STEPPING stage, which becomes IDLE one position further, 3215 staying 3215, or starts a homing that waited at
the indication's time. Time passes neither an indication nor the timer's end without its row, so that the earlier
of the two comes first (log entry 2). STAGE_TIMEOUT, 500 ms into a homing or 20 ms into a step, makes the stage
UNKNOWN with no position and faults the transport with STAGE unless it is in FAULT: the trigger reaches the
blanking where enabled, and a POSITIONING or EXPOSING record is aborted with TRANSPORT; a homing that waited for
the step then starts (log entry 32). A done indication of the timeout's moment, where the timeout is taken first,
is not used. -/
def Obligations.StageHomesStepsAndFails : Prop :=
  ∀ (seen : Trace) (s : State),
    let e := sense seen s
    (e.sen.stageDone.fired = false → exec (.homingDone seen) s = .next e ∧ exec (.stepDone seen) s = .next e) ∧
    (e.sen.stageDone.fired = true →
      let sensors := { e.sen with stageDone := { e.sen.stageDone with fired := false } }
      (s.ftc.stage = .homing → ∃ t, exec (.homingDone seen) s = .next t ∧
        t.ftc.stage = .idle ∧ t.ftc.position = some 0 ∧ t.ftc.stageTimer = none ∧ t.ftc.state = s.ftc.state ∧
        (s.ftc.state = .advancing → s.ftc.phase = some .stageReturn → t.ftc.phase = some .filmRun ∧
          t.ftc.pinsIn = false ∧ t.ftc.motor = true ∧ t.ftc.perfTimer = some (e.clock / 131072000000) ∧
          t.ftc.counter = s.ftc.counter) ∧
        (¬ (s.ftc.state = .advancing ∧ s.ftc.phase = some .stageReturn) →
          t.ftc = { s.ftc with stage := .idle, position := some 0, stageTimer := none }) ∧ t.sen = sensors ∧
        (∀ r rest, s.fq.records = r :: rest → (∀ q ∈ rest, q.fsn ≠ r.fsn) →
          (r.exposure = .positioning → r.step = some .homing →
            t.fq = { s.fq with records := { r with step := some .homed } :: rest }) ∧
          (r.exposure ≠ .positioning ∨ r.step ≠ some .homing → t.fq = s.fq)) ∧
        (s.fq.records = [] → t.fq = s.fq) ∧ Sensed seen s t ∧
        Told s t ∧ SameBut [.clock, .sen, .lrx, .lanes, .fq, .ftc, .pfm, .cpr, .rtx] s t) ∧
      (s.ftc.stage = .idle ∨ s.ftc.stage = .unknown →
        exec (.homingDone seen) s = .next (e.withSen sensors)) ∧
      (∀ x, s.ftc.stage = .stepping → s.ftc.position = some x →
        (s.ftc.homeWaiting = false → exec (.stepDone seen) s = .next ((e.withSen sensors).withFtc { s.ftc with
          stage := .idle, position := some (min 3215 (x + 1)), stageTimer := none })) ∧
        (s.ftc.homeWaiting = true → exec (.stepDone seen) s = .next ((e.withSen sensors).withFtc
          { s.ftc with stage := .homing, position := some (min 3215 (x + 1)),
                       stageTimer := some (e.clock / 131072000000), homeWaiting := false })))) ∧
    (s.ftc.stage = .stepping → exec (.homingDone seen) s = .next e) ∧
    (s.ftc.stage ≠ .stepping → exec (.stepDone seen) s = .next e) ∧
    (∀ (t0 limitMs : Nat), (s.ftc.stage = .homing ∧ limitMs = 500) ∨ (s.ftc.stage = .stepping ∧ limitMs = 20) →
      s.ftc.stageTimer = some t0 →
      let due := (t0 + limitMs) * 131072000000
      let before := reach due s
      (before.clock < due → exec .stageTimeout s = .next before) ∧
      (due ≤ before.clock → ∃ t, exec .stageTimeout s = .next t ∧
      Came before s t ∧ t.ftc.state = .fault ∧
      t.sen = { before.sen with stageDone := { before.sen.stageDone with fired := false } } ∧
      (s.ftc.homeWaiting = false → t.ftc.stage = .unknown ∧ t.ftc.position = none ∧ t.ftc.stageTimer = none) ∧
      (s.ftc.homeWaiting = true → t.ftc.stage = .homing ∧ t.ftc.stageTimer = some (before.clock / 131072000000)) ∧
      t.ftc.homeWaiting = false ∧
      (s.ftc.state ≠ .fault → t.ftc.faultCause = some .stage ∧ t.ftc.motor = false ∧ t.ftc.phase = none ∧
        t.ftc.origin = none ∧ t.ftc.counter = 0 ∧ t.ftc.perfTimer = none ∧ t.ftc.settleTimer = none ∧
        t.ftc.pinsIn = s.ftc.pinsIn ∧ FaultSignalled s t) ∧
      (s.ftc.state = .fault → t.ftc.faultCause = s.ftc.faultCause ∧ t.blc = s.blc ∧ t.fq = s.fq) ∧
      CopyIsCurrent t))

/-- O54. With the latch clear BLANK RESUME changes nothing and answers was clear. With it set and some enabled
source's condition present it is refused with TRIGGER_ACTIVE and names each; with none present the latch clears,
the cause set empties after being answered, and each amplitude takes its rung in effect's code or 0 with the pulse
outputs as they were; HELD stays. From any state, a command that takes the latch from set to clear is BLANK
RESUME. -/
def Obligations.OnlyBlankResumeClearsTheLatch : Prop :=
  (∀ (tag : Nat) (s : State), CommandReady tag 0x48 [] s →
    let active := (if s.blc.interlockOpen then 1 else 0) +
      (if s.blc.mask.getLsbD 1 = true ∧ s.stu.polygon ≠ .locked then 2 else 0) +
      (if s.blc.mask.getLsbD 2 = true ∧ s.stu.facetSync = .hunt then 4 else 0) +
      (if s.blc.mask.getLsbD 3 = true ∧ s.ftc.state = .fault then 8 else 0) +
      (if s.blc.mask.getLsbD 4 = true ∧ (s.lmn.channels.red.beyond || s.lmn.channels.green.beyond ||
        s.lmn.channels.blue.beyond) = true then 16 else 0)
    (s.blc.latch = false → exec .blankResume s = .next (answeredWith tag 0x48
      (accepted ([0x01] ++ be1 s.blc.causes.toNat ++ [0x00])) s)) ∧
    (s.blc.latch = true → active ≠ 0 → exec .blankResume s = .next (answeredWith tag 0x48
      ⟨.refused, some .triggerActive, [0x00] ++ be1 s.blc.causes.toNat ++ be1 active⟩ s)) ∧
    (s.blc.latch = true → active = 0 → ∃ t, exec .blankResume s = .next t ∧
      t.blc = { s.blc with latch := false, causes := 0 } ∧ t.cpr.current.blankLatch = false ∧
      (∀ c : Colour, t.pfm.lanes.get c = { s.pfm.lanes.get c with
        amplitude := ((s.pfm.lanes.get c).rung.map Prod.snd).getD 0 }) ∧
      t.pfm.line = s.pfm.line ∧ (s.pfm.request.isSome = true → t.pfm.request = s.pfm.request) ∧
      (s.pfm.request = none → RequestComposed t) ∧
      Told (answeredWith tag 0x48 (accepted ([0x00] ++ be1 s.blc.causes.toNat ++ [0x00])) s) t ∧
      SameBut [.cpr, .rtx, .pfm, .blc] s t)) ∧
  (∀ (c : Instr) (s t : State), exec c s = .next t → s.blc.latch = true → t.blc.latch = false → c = .blankResume)

/-- O55. The interlock input is sampled every 100th count (that these are the multiples of 100 of the clock, and how
the filter starts, is the model's choice, log entry 7: R183 says only every 100 counts); four samples in a row
that differ from the filtered state change it. A change to open, which INTERLOCK_OPEN takes, sets a clear latch
with INTERLOCK alone, or joins INTERLOCK to a set latch's causes. At the setting every pulse output closes and
every amplitude is 0, the line stops, an EXPOSING record is aborted with BLANKED and the queue is HELD, a running
measurement is ABANDONED, and every accumulator is emptied. At a change to closed, which INTERLOCK_CLOSED takes,
the latch is not touched. Time passes no change without its row (log entry 2). Each row takes the change that the
trace has brought where it is its own, and otherwise nothing but the inputs' coming happens. -/
def Obligations.InterlockOpeningBlanksTheFilm : Prop :=
  ∀ (seen : Trace) (s : State),
    let e := sense seen s
    (∀ n : Nat,
      let k := (s.clock + n * 1310720) / 131072000 - s.clock / 131072000
      let f := s.sen.interlock
      let g := (advanceTo (s.clock + n * 1310720) s).sen.interlock
      (k = 0 → g = f) ∧ (0 < k → f.shown = f.level → g = { f with run := 0 }) ∧
      (0 < k → f.shown ≠ f.level → f.run + k < 4 → g = { f with run := f.run + k }) ∧
      (0 < k → f.shown ≠ f.level → 4 ≤ f.run + k → g = { f with
        level := f.shown, run := 0, fired := true }) ∧
      (f.fired = true →
        (s.clock, some (if f.level then Instr.interlockClosed [] else .interlockOpen [])) ∈ waiting s) ∧
      (f.fired = false → f.run < 4 → f.shown ≠ f.level → ((s.clock / 131072000 + (4 - f.run)) * 131072000,
        some (if f.shown then Instr.interlockClosed [] else .interlockOpen [])) ∈ waiting s)) ∧
    (e.sen.interlock.fired = false → exec (.interlockOpen seen) s = .next e ∧ exec (.interlockClosed seen) s = .next e) ∧
    (e.sen.interlock.fired = true →
      let sensors := { e.sen with interlock := { e.sen.interlock with fired := false } }
      (e.sen.interlock.level = true → exec (.interlockOpen seen) s = .next e ∧ exec (.interlockClosed seen) s =
          .next ((e.withSen sensors).withBlc { s.blc with interlockOpen := false })) ∧
      (e.sen.interlock.level = false → exec (.interlockClosed seen) s = .next e) ∧
      (e.sen.interlock.level = false →
        ∃ t, exec (.interlockOpen seen) s = .next t ∧ Sensed seen s t ∧ t.sen = sensors ∧ CopyIsCurrent t ∧
        Blanked 0x01 .blanked (s.withBlc { s.blc with interlockOpen := true }) t ∧
        t.cpr.current.blankLatch = true ∧ t.cpr.current.blankCauses = t.blc.causes ∧
        (s.blc.latch = true → Told s t ∧
          SameBut [.clock, .sen, .lrx, .lanes, .pfm, .blc, .cpr, .rtx] s t) ∧
        (s.blc.latch = false →
          (∀ c : Colour, t.lmn.channels.get c = { s.lmn.channels.get c with accCount := 0, accSum := 0 }) ∧
          (isExposing s = false → t.fq = s.fq ∧ t.ftc = s.ftc) ∧
          ∀ r rest, s.fq.records = r :: rest → r.exposure = .exposing → (∀ q ∈ rest, q.fsn ≠ r.fsn) →
            t.fq.records = rest)))

/-- O56. After power-on the latch is set with every output dark, the cause set is lawful, the CPR's copy is current,
no queue or frame bound is exceeded, HOLD follows the FREE slots, every addressed table has its canonical form and
each drift correction is in range. -/
def Obligations.PowerOnStateIsSafe : Prop :=
  Safe State.reset

/-- O57. From every state in which the outputs are dark and no line is being placed while the blank latch is set, the
cause set is empty exactly while the latch is clear, and the mask lacks INTERLOCK, a step that answers a next
state leaves a state in which all of this holds. -/
def Obligations.EveryStepKeepsTheBlankDark : Prop :=
  ∀ s t : State, BlankIsDark s → BlankLawful s → step s = .next t → BlankIsDark t ∧ BlankLawful t

/-- O58. From every state in which the Command Processor's copy of the nine state conditions holds each owner's
current value, a step that answers a next state leaves a state in which it does. -/
def Obligations.EveryStepKeepsTheStatusCopyCurrent : Prop :=
  ∀ s t : State, CopyIsCurrent s → step s = .next t → CopyIsCurrent t

/-- O59. From every state in which the FIFO holds at most 8 blocks and the outbound queue at most 32 entries, none
reserved, no block in execution and any transmission that of an entry, no two records carry one FSN and records
with waiting reports number at most 4, a step that answers a next state leaves such a state. -/
def Obligations.EveryStepKeepsQueuesAndFramesBounded : Prop :=
  ∀ s t : State, QueuesBounded s → FramesBounded s → step s = .next t → QueuesBounded t ∧ FramesBounded t

/-- O60. From every state in which there are forty line slots with HOLD asserted at 6 FREE or fewer and released at 10
or more, every CDT, compiled table and hold buffer has its canonical form, and each drift correction lies within
-250..+250, a step that answers a next state leaves such a state. -/
def Obligations.EveryStepKeepsTheStoresLawful : Prop :=
  ∀ s t : State, HoldFollows s → TablesWf s → DriftInRange s → step s = .next t →
    HoldFollows t ∧ TablesWf t ∧ DriftInRange t
end

