-- ==== Sys2Proof/Laws/State.lean ====
section
/-! SUPPORT. What each update of State leaves: one lemma for each field and each update, true by rfl. -/

namespace Sys2Proof.Machine.State

variable (s : State)

@[simp] theorem withPending_pending (x : List Instr) : (s.withPending x).pending = x := rfl
@[simp] theorem withPending_clock (x : List Instr) : (s.withPending x).clock = s.clock := rfl
@[simp] theorem withPending_free (x : List Instr) : (s.withPending x).free = s.free := rfl
@[simp] theorem withPending_lrx (x : List Instr) : (s.withPending x).lrx = s.lrx := rfl
@[simp] theorem withPending_cpr (x : List Instr) : (s.withPending x).cpr = s.cpr := rfl
@[simp] theorem withPending_rtx (x : List Instr) : (s.withPending x).rtx = s.rtx := rfl
@[simp] theorem withPending_pst (x : List Instr) : (s.withPending x).pst = s.pst := rfl
@[simp] theorem withPending_fq (x : List Instr) : (s.withPending x).fq = s.fq := rfl
@[simp] theorem withPending_lst (x : List Instr) : (s.withPending x).lst = s.lst := rfl
@[simp] theorem withPending_lanes (x : List Instr) : (s.withPending x).lanes = s.lanes := rfl
@[simp] theorem withPending_stu (x : List Instr) : (s.withPending x).stu = s.stu := rfl
@[simp] theorem withPending_pfm (x : List Instr) : (s.withPending x).pfm = s.pfm := rfl
@[simp] theorem withPending_lmn (x : List Instr) : (s.withPending x).lmn = s.lmn := rfl
@[simp] theorem withPending_blc (x : List Instr) : (s.withPending x).blc = s.blc := rfl
@[simp] theorem withPending_ftc (x : List Instr) : (s.withPending x).ftc = s.ftc := rfl
@[simp] theorem withPending_sen (x : List Instr) : (s.withPending x).sen = s.sen := rfl
@[simp] theorem withPending_self : s.withPending s.pending = s := rfl
@[simp] theorem withPending_withPending (x y : List Instr) : (s.withPending x).withPending y = s.withPending y := rfl

@[simp] theorem withClock_pending (x : Nat) : (s.withClock x).pending = s.pending := rfl
@[simp] theorem withClock_clock (x : Nat) : (s.withClock x).clock = x := rfl
@[simp] theorem withClock_free (x : Nat) : (s.withClock x).free = s.free := rfl
@[simp] theorem withClock_lrx (x : Nat) : (s.withClock x).lrx = s.lrx := rfl
@[simp] theorem withClock_cpr (x : Nat) : (s.withClock x).cpr = s.cpr := rfl
@[simp] theorem withClock_rtx (x : Nat) : (s.withClock x).rtx = s.rtx := rfl
@[simp] theorem withClock_pst (x : Nat) : (s.withClock x).pst = s.pst := rfl
@[simp] theorem withClock_fq (x : Nat) : (s.withClock x).fq = s.fq := rfl
@[simp] theorem withClock_lst (x : Nat) : (s.withClock x).lst = s.lst := rfl
@[simp] theorem withClock_lanes (x : Nat) : (s.withClock x).lanes = s.lanes := rfl
@[simp] theorem withClock_stu (x : Nat) : (s.withClock x).stu = s.stu := rfl
@[simp] theorem withClock_pfm (x : Nat) : (s.withClock x).pfm = s.pfm := rfl
@[simp] theorem withClock_lmn (x : Nat) : (s.withClock x).lmn = s.lmn := rfl
@[simp] theorem withClock_blc (x : Nat) : (s.withClock x).blc = s.blc := rfl
@[simp] theorem withClock_ftc (x : Nat) : (s.withClock x).ftc = s.ftc := rfl
@[simp] theorem withClock_sen (x : Nat) : (s.withClock x).sen = s.sen := rfl
@[simp] theorem withClock_self : s.withClock s.clock = s := rfl
@[simp] theorem withClock_withClock (x y : Nat) : (s.withClock x).withClock y = s.withClock y := rfl

@[simp] theorem withFree_pending (x : Nat) : (s.withFree x).pending = s.pending := rfl
@[simp] theorem withFree_clock (x : Nat) : (s.withFree x).clock = s.clock := rfl
@[simp] theorem withFree_free (x : Nat) : (s.withFree x).free = x := rfl
@[simp] theorem withFree_lrx (x : Nat) : (s.withFree x).lrx = s.lrx := rfl
@[simp] theorem withFree_cpr (x : Nat) : (s.withFree x).cpr = s.cpr := rfl
@[simp] theorem withFree_rtx (x : Nat) : (s.withFree x).rtx = s.rtx := rfl
@[simp] theorem withFree_pst (x : Nat) : (s.withFree x).pst = s.pst := rfl
@[simp] theorem withFree_fq (x : Nat) : (s.withFree x).fq = s.fq := rfl
@[simp] theorem withFree_lst (x : Nat) : (s.withFree x).lst = s.lst := rfl
@[simp] theorem withFree_lanes (x : Nat) : (s.withFree x).lanes = s.lanes := rfl
@[simp] theorem withFree_stu (x : Nat) : (s.withFree x).stu = s.stu := rfl
@[simp] theorem withFree_pfm (x : Nat) : (s.withFree x).pfm = s.pfm := rfl
@[simp] theorem withFree_lmn (x : Nat) : (s.withFree x).lmn = s.lmn := rfl
@[simp] theorem withFree_blc (x : Nat) : (s.withFree x).blc = s.blc := rfl
@[simp] theorem withFree_ftc (x : Nat) : (s.withFree x).ftc = s.ftc := rfl
@[simp] theorem withFree_sen (x : Nat) : (s.withFree x).sen = s.sen := rfl
@[simp] theorem withFree_self : s.withFree s.free = s := rfl
@[simp] theorem withFree_withFree (x y : Nat) : (s.withFree x).withFree y = s.withFree y := rfl

@[simp] theorem withLrx_pending (x : Lrx) : (s.withLrx x).pending = s.pending := rfl
@[simp] theorem withLrx_clock (x : Lrx) : (s.withLrx x).clock = s.clock := rfl
@[simp] theorem withLrx_free (x : Lrx) : (s.withLrx x).free = s.free := rfl
@[simp] theorem withLrx_lrx (x : Lrx) : (s.withLrx x).lrx = x := rfl
@[simp] theorem withLrx_cpr (x : Lrx) : (s.withLrx x).cpr = s.cpr := rfl
@[simp] theorem withLrx_rtx (x : Lrx) : (s.withLrx x).rtx = s.rtx := rfl
@[simp] theorem withLrx_pst (x : Lrx) : (s.withLrx x).pst = s.pst := rfl
@[simp] theorem withLrx_fq (x : Lrx) : (s.withLrx x).fq = s.fq := rfl
@[simp] theorem withLrx_lst (x : Lrx) : (s.withLrx x).lst = s.lst := rfl
@[simp] theorem withLrx_lanes (x : Lrx) : (s.withLrx x).lanes = s.lanes := rfl
@[simp] theorem withLrx_stu (x : Lrx) : (s.withLrx x).stu = s.stu := rfl
@[simp] theorem withLrx_pfm (x : Lrx) : (s.withLrx x).pfm = s.pfm := rfl
@[simp] theorem withLrx_lmn (x : Lrx) : (s.withLrx x).lmn = s.lmn := rfl
@[simp] theorem withLrx_blc (x : Lrx) : (s.withLrx x).blc = s.blc := rfl
@[simp] theorem withLrx_ftc (x : Lrx) : (s.withLrx x).ftc = s.ftc := rfl
@[simp] theorem withLrx_sen (x : Lrx) : (s.withLrx x).sen = s.sen := rfl
@[simp] theorem withLrx_self : s.withLrx s.lrx = s := rfl
@[simp] theorem withLrx_withLrx (x y : Lrx) : (s.withLrx x).withLrx y = s.withLrx y := rfl

@[simp] theorem withCpr_pending (x : Cpr) : (s.withCpr x).pending = s.pending := rfl
@[simp] theorem withCpr_clock (x : Cpr) : (s.withCpr x).clock = s.clock := rfl
@[simp] theorem withCpr_free (x : Cpr) : (s.withCpr x).free = s.free := rfl
@[simp] theorem withCpr_lrx (x : Cpr) : (s.withCpr x).lrx = s.lrx := rfl
@[simp] theorem withCpr_cpr (x : Cpr) : (s.withCpr x).cpr = x := rfl
@[simp] theorem withCpr_rtx (x : Cpr) : (s.withCpr x).rtx = s.rtx := rfl
@[simp] theorem withCpr_pst (x : Cpr) : (s.withCpr x).pst = s.pst := rfl
@[simp] theorem withCpr_fq (x : Cpr) : (s.withCpr x).fq = s.fq := rfl
@[simp] theorem withCpr_lst (x : Cpr) : (s.withCpr x).lst = s.lst := rfl
@[simp] theorem withCpr_lanes (x : Cpr) : (s.withCpr x).lanes = s.lanes := rfl
@[simp] theorem withCpr_stu (x : Cpr) : (s.withCpr x).stu = s.stu := rfl
@[simp] theorem withCpr_pfm (x : Cpr) : (s.withCpr x).pfm = s.pfm := rfl
@[simp] theorem withCpr_lmn (x : Cpr) : (s.withCpr x).lmn = s.lmn := rfl
@[simp] theorem withCpr_blc (x : Cpr) : (s.withCpr x).blc = s.blc := rfl
@[simp] theorem withCpr_ftc (x : Cpr) : (s.withCpr x).ftc = s.ftc := rfl
@[simp] theorem withCpr_sen (x : Cpr) : (s.withCpr x).sen = s.sen := rfl
@[simp] theorem withCpr_self : s.withCpr s.cpr = s := rfl
@[simp] theorem withCpr_withCpr (x y : Cpr) : (s.withCpr x).withCpr y = s.withCpr y := rfl

@[simp] theorem withRtx_pending (x : Rtx) : (s.withRtx x).pending = s.pending := rfl
@[simp] theorem withRtx_clock (x : Rtx) : (s.withRtx x).clock = s.clock := rfl
@[simp] theorem withRtx_free (x : Rtx) : (s.withRtx x).free = s.free := rfl
@[simp] theorem withRtx_lrx (x : Rtx) : (s.withRtx x).lrx = s.lrx := rfl
@[simp] theorem withRtx_cpr (x : Rtx) : (s.withRtx x).cpr = s.cpr := rfl
@[simp] theorem withRtx_rtx (x : Rtx) : (s.withRtx x).rtx = x := rfl
@[simp] theorem withRtx_pst (x : Rtx) : (s.withRtx x).pst = s.pst := rfl
@[simp] theorem withRtx_fq (x : Rtx) : (s.withRtx x).fq = s.fq := rfl
@[simp] theorem withRtx_lst (x : Rtx) : (s.withRtx x).lst = s.lst := rfl
@[simp] theorem withRtx_lanes (x : Rtx) : (s.withRtx x).lanes = s.lanes := rfl
@[simp] theorem withRtx_stu (x : Rtx) : (s.withRtx x).stu = s.stu := rfl
@[simp] theorem withRtx_pfm (x : Rtx) : (s.withRtx x).pfm = s.pfm := rfl
@[simp] theorem withRtx_lmn (x : Rtx) : (s.withRtx x).lmn = s.lmn := rfl
@[simp] theorem withRtx_blc (x : Rtx) : (s.withRtx x).blc = s.blc := rfl
@[simp] theorem withRtx_ftc (x : Rtx) : (s.withRtx x).ftc = s.ftc := rfl
@[simp] theorem withRtx_sen (x : Rtx) : (s.withRtx x).sen = s.sen := rfl
@[simp] theorem withRtx_self : s.withRtx s.rtx = s := rfl
@[simp] theorem withRtx_withRtx (x y : Rtx) : (s.withRtx x).withRtx y = s.withRtx y := rfl

@[simp] theorem withPst_pending (x : Pst) : (s.withPst x).pending = s.pending := rfl
@[simp] theorem withPst_clock (x : Pst) : (s.withPst x).clock = s.clock := rfl
@[simp] theorem withPst_free (x : Pst) : (s.withPst x).free = s.free := rfl
@[simp] theorem withPst_lrx (x : Pst) : (s.withPst x).lrx = s.lrx := rfl
@[simp] theorem withPst_cpr (x : Pst) : (s.withPst x).cpr = s.cpr := rfl
@[simp] theorem withPst_rtx (x : Pst) : (s.withPst x).rtx = s.rtx := rfl
@[simp] theorem withPst_pst (x : Pst) : (s.withPst x).pst = x := rfl
@[simp] theorem withPst_fq (x : Pst) : (s.withPst x).fq = s.fq := rfl
@[simp] theorem withPst_lst (x : Pst) : (s.withPst x).lst = s.lst := rfl
@[simp] theorem withPst_lanes (x : Pst) : (s.withPst x).lanes = s.lanes := rfl
@[simp] theorem withPst_stu (x : Pst) : (s.withPst x).stu = s.stu := rfl
@[simp] theorem withPst_pfm (x : Pst) : (s.withPst x).pfm = s.pfm := rfl
@[simp] theorem withPst_lmn (x : Pst) : (s.withPst x).lmn = s.lmn := rfl
@[simp] theorem withPst_blc (x : Pst) : (s.withPst x).blc = s.blc := rfl
@[simp] theorem withPst_ftc (x : Pst) : (s.withPst x).ftc = s.ftc := rfl
@[simp] theorem withPst_sen (x : Pst) : (s.withPst x).sen = s.sen := rfl
@[simp] theorem withPst_self : s.withPst s.pst = s := rfl
@[simp] theorem withPst_withPst (x y : Pst) : (s.withPst x).withPst y = s.withPst y := rfl

@[simp] theorem withFq_pending (x : Fq) : (s.withFq x).pending = s.pending := rfl
@[simp] theorem withFq_clock (x : Fq) : (s.withFq x).clock = s.clock := rfl
@[simp] theorem withFq_free (x : Fq) : (s.withFq x).free = s.free := rfl
@[simp] theorem withFq_lrx (x : Fq) : (s.withFq x).lrx = s.lrx := rfl
@[simp] theorem withFq_cpr (x : Fq) : (s.withFq x).cpr = s.cpr := rfl
@[simp] theorem withFq_rtx (x : Fq) : (s.withFq x).rtx = s.rtx := rfl
@[simp] theorem withFq_pst (x : Fq) : (s.withFq x).pst = s.pst := rfl
@[simp] theorem withFq_fq (x : Fq) : (s.withFq x).fq = x := rfl
@[simp] theorem withFq_lst (x : Fq) : (s.withFq x).lst = s.lst := rfl
@[simp] theorem withFq_lanes (x : Fq) : (s.withFq x).lanes = s.lanes := rfl
@[simp] theorem withFq_stu (x : Fq) : (s.withFq x).stu = s.stu := rfl
@[simp] theorem withFq_pfm (x : Fq) : (s.withFq x).pfm = s.pfm := rfl
@[simp] theorem withFq_lmn (x : Fq) : (s.withFq x).lmn = s.lmn := rfl
@[simp] theorem withFq_blc (x : Fq) : (s.withFq x).blc = s.blc := rfl
@[simp] theorem withFq_ftc (x : Fq) : (s.withFq x).ftc = s.ftc := rfl
@[simp] theorem withFq_sen (x : Fq) : (s.withFq x).sen = s.sen := rfl
@[simp] theorem withFq_self : s.withFq s.fq = s := rfl
@[simp] theorem withFq_withFq (x y : Fq) : (s.withFq x).withFq y = s.withFq y := rfl

@[simp] theorem withLst_pending (x : Lst) : (s.withLst x).pending = s.pending := rfl
@[simp] theorem withLst_clock (x : Lst) : (s.withLst x).clock = s.clock := rfl
@[simp] theorem withLst_free (x : Lst) : (s.withLst x).free = s.free := rfl
@[simp] theorem withLst_lrx (x : Lst) : (s.withLst x).lrx = s.lrx := rfl
@[simp] theorem withLst_cpr (x : Lst) : (s.withLst x).cpr = s.cpr := rfl
@[simp] theorem withLst_rtx (x : Lst) : (s.withLst x).rtx = s.rtx := rfl
@[simp] theorem withLst_pst (x : Lst) : (s.withLst x).pst = s.pst := rfl
@[simp] theorem withLst_fq (x : Lst) : (s.withLst x).fq = s.fq := rfl
@[simp] theorem withLst_lst (x : Lst) : (s.withLst x).lst = x := rfl
@[simp] theorem withLst_lanes (x : Lst) : (s.withLst x).lanes = s.lanes := rfl
@[simp] theorem withLst_stu (x : Lst) : (s.withLst x).stu = s.stu := rfl
@[simp] theorem withLst_pfm (x : Lst) : (s.withLst x).pfm = s.pfm := rfl
@[simp] theorem withLst_lmn (x : Lst) : (s.withLst x).lmn = s.lmn := rfl
@[simp] theorem withLst_blc (x : Lst) : (s.withLst x).blc = s.blc := rfl
@[simp] theorem withLst_ftc (x : Lst) : (s.withLst x).ftc = s.ftc := rfl
@[simp] theorem withLst_sen (x : Lst) : (s.withLst x).sen = s.sen := rfl
@[simp] theorem withLst_self : s.withLst s.lst = s := rfl
@[simp] theorem withLst_withLst (x y : Lst) : (s.withLst x).withLst y = s.withLst y := rfl

@[simp] theorem withLanes_pending (x : PerColour Lane) : (s.withLanes x).pending = s.pending := rfl
@[simp] theorem withLanes_clock (x : PerColour Lane) : (s.withLanes x).clock = s.clock := rfl
@[simp] theorem withLanes_free (x : PerColour Lane) : (s.withLanes x).free = s.free := rfl
@[simp] theorem withLanes_lrx (x : PerColour Lane) : (s.withLanes x).lrx = s.lrx := rfl
@[simp] theorem withLanes_cpr (x : PerColour Lane) : (s.withLanes x).cpr = s.cpr := rfl
@[simp] theorem withLanes_rtx (x : PerColour Lane) : (s.withLanes x).rtx = s.rtx := rfl
@[simp] theorem withLanes_pst (x : PerColour Lane) : (s.withLanes x).pst = s.pst := rfl
@[simp] theorem withLanes_fq (x : PerColour Lane) : (s.withLanes x).fq = s.fq := rfl
@[simp] theorem withLanes_lst (x : PerColour Lane) : (s.withLanes x).lst = s.lst := rfl
@[simp] theorem withLanes_lanes (x : PerColour Lane) : (s.withLanes x).lanes = x := rfl
@[simp] theorem withLanes_stu (x : PerColour Lane) : (s.withLanes x).stu = s.stu := rfl
@[simp] theorem withLanes_pfm (x : PerColour Lane) : (s.withLanes x).pfm = s.pfm := rfl
@[simp] theorem withLanes_lmn (x : PerColour Lane) : (s.withLanes x).lmn = s.lmn := rfl
@[simp] theorem withLanes_blc (x : PerColour Lane) : (s.withLanes x).blc = s.blc := rfl
@[simp] theorem withLanes_ftc (x : PerColour Lane) : (s.withLanes x).ftc = s.ftc := rfl
@[simp] theorem withLanes_sen (x : PerColour Lane) : (s.withLanes x).sen = s.sen := rfl
@[simp] theorem withLanes_self : s.withLanes s.lanes = s := rfl
@[simp] theorem withLanes_withLanes (x y : PerColour Lane) : (s.withLanes x).withLanes y = s.withLanes y := rfl

@[simp] theorem withStu_pending (x : Stu) : (s.withStu x).pending = s.pending := rfl
@[simp] theorem withStu_clock (x : Stu) : (s.withStu x).clock = s.clock := rfl
@[simp] theorem withStu_free (x : Stu) : (s.withStu x).free = s.free := rfl
@[simp] theorem withStu_lrx (x : Stu) : (s.withStu x).lrx = s.lrx := rfl
@[simp] theorem withStu_cpr (x : Stu) : (s.withStu x).cpr = s.cpr := rfl
@[simp] theorem withStu_rtx (x : Stu) : (s.withStu x).rtx = s.rtx := rfl
@[simp] theorem withStu_pst (x : Stu) : (s.withStu x).pst = s.pst := rfl
@[simp] theorem withStu_fq (x : Stu) : (s.withStu x).fq = s.fq := rfl
@[simp] theorem withStu_lst (x : Stu) : (s.withStu x).lst = s.lst := rfl
@[simp] theorem withStu_lanes (x : Stu) : (s.withStu x).lanes = s.lanes := rfl
@[simp] theorem withStu_stu (x : Stu) : (s.withStu x).stu = x := rfl
@[simp] theorem withStu_pfm (x : Stu) : (s.withStu x).pfm = s.pfm := rfl
@[simp] theorem withStu_lmn (x : Stu) : (s.withStu x).lmn = s.lmn := rfl
@[simp] theorem withStu_blc (x : Stu) : (s.withStu x).blc = s.blc := rfl
@[simp] theorem withStu_ftc (x : Stu) : (s.withStu x).ftc = s.ftc := rfl
@[simp] theorem withStu_sen (x : Stu) : (s.withStu x).sen = s.sen := rfl
@[simp] theorem withStu_self : s.withStu s.stu = s := rfl
@[simp] theorem withStu_withStu (x y : Stu) : (s.withStu x).withStu y = s.withStu y := rfl

@[simp] theorem withPfm_pending (x : Pfm) : (s.withPfm x).pending = s.pending := rfl
@[simp] theorem withPfm_clock (x : Pfm) : (s.withPfm x).clock = s.clock := rfl
@[simp] theorem withPfm_free (x : Pfm) : (s.withPfm x).free = s.free := rfl
@[simp] theorem withPfm_lrx (x : Pfm) : (s.withPfm x).lrx = s.lrx := rfl
@[simp] theorem withPfm_cpr (x : Pfm) : (s.withPfm x).cpr = s.cpr := rfl
@[simp] theorem withPfm_rtx (x : Pfm) : (s.withPfm x).rtx = s.rtx := rfl
@[simp] theorem withPfm_pst (x : Pfm) : (s.withPfm x).pst = s.pst := rfl
@[simp] theorem withPfm_fq (x : Pfm) : (s.withPfm x).fq = s.fq := rfl
@[simp] theorem withPfm_lst (x : Pfm) : (s.withPfm x).lst = s.lst := rfl
@[simp] theorem withPfm_lanes (x : Pfm) : (s.withPfm x).lanes = s.lanes := rfl
@[simp] theorem withPfm_stu (x : Pfm) : (s.withPfm x).stu = s.stu := rfl
@[simp] theorem withPfm_pfm (x : Pfm) : (s.withPfm x).pfm = x := rfl
@[simp] theorem withPfm_lmn (x : Pfm) : (s.withPfm x).lmn = s.lmn := rfl
@[simp] theorem withPfm_blc (x : Pfm) : (s.withPfm x).blc = s.blc := rfl
@[simp] theorem withPfm_ftc (x : Pfm) : (s.withPfm x).ftc = s.ftc := rfl
@[simp] theorem withPfm_sen (x : Pfm) : (s.withPfm x).sen = s.sen := rfl
@[simp] theorem withPfm_self : s.withPfm s.pfm = s := rfl
@[simp] theorem withPfm_withPfm (x y : Pfm) : (s.withPfm x).withPfm y = s.withPfm y := rfl

@[simp] theorem withLmn_pending (x : Lmn) : (s.withLmn x).pending = s.pending := rfl
@[simp] theorem withLmn_clock (x : Lmn) : (s.withLmn x).clock = s.clock := rfl
@[simp] theorem withLmn_free (x : Lmn) : (s.withLmn x).free = s.free := rfl
@[simp] theorem withLmn_lrx (x : Lmn) : (s.withLmn x).lrx = s.lrx := rfl
@[simp] theorem withLmn_cpr (x : Lmn) : (s.withLmn x).cpr = s.cpr := rfl
@[simp] theorem withLmn_rtx (x : Lmn) : (s.withLmn x).rtx = s.rtx := rfl
@[simp] theorem withLmn_pst (x : Lmn) : (s.withLmn x).pst = s.pst := rfl
@[simp] theorem withLmn_fq (x : Lmn) : (s.withLmn x).fq = s.fq := rfl
@[simp] theorem withLmn_lst (x : Lmn) : (s.withLmn x).lst = s.lst := rfl
@[simp] theorem withLmn_lanes (x : Lmn) : (s.withLmn x).lanes = s.lanes := rfl
@[simp] theorem withLmn_stu (x : Lmn) : (s.withLmn x).stu = s.stu := rfl
@[simp] theorem withLmn_pfm (x : Lmn) : (s.withLmn x).pfm = s.pfm := rfl
@[simp] theorem withLmn_lmn (x : Lmn) : (s.withLmn x).lmn = x := rfl
@[simp] theorem withLmn_blc (x : Lmn) : (s.withLmn x).blc = s.blc := rfl
@[simp] theorem withLmn_ftc (x : Lmn) : (s.withLmn x).ftc = s.ftc := rfl
@[simp] theorem withLmn_sen (x : Lmn) : (s.withLmn x).sen = s.sen := rfl
@[simp] theorem withLmn_self : s.withLmn s.lmn = s := rfl
@[simp] theorem withLmn_withLmn (x y : Lmn) : (s.withLmn x).withLmn y = s.withLmn y := rfl

@[simp] theorem withBlc_pending (x : Blc) : (s.withBlc x).pending = s.pending := rfl
@[simp] theorem withBlc_clock (x : Blc) : (s.withBlc x).clock = s.clock := rfl
@[simp] theorem withBlc_free (x : Blc) : (s.withBlc x).free = s.free := rfl
@[simp] theorem withBlc_lrx (x : Blc) : (s.withBlc x).lrx = s.lrx := rfl
@[simp] theorem withBlc_cpr (x : Blc) : (s.withBlc x).cpr = s.cpr := rfl
@[simp] theorem withBlc_rtx (x : Blc) : (s.withBlc x).rtx = s.rtx := rfl
@[simp] theorem withBlc_pst (x : Blc) : (s.withBlc x).pst = s.pst := rfl
@[simp] theorem withBlc_fq (x : Blc) : (s.withBlc x).fq = s.fq := rfl
@[simp] theorem withBlc_lst (x : Blc) : (s.withBlc x).lst = s.lst := rfl
@[simp] theorem withBlc_lanes (x : Blc) : (s.withBlc x).lanes = s.lanes := rfl
@[simp] theorem withBlc_stu (x : Blc) : (s.withBlc x).stu = s.stu := rfl
@[simp] theorem withBlc_pfm (x : Blc) : (s.withBlc x).pfm = s.pfm := rfl
@[simp] theorem withBlc_lmn (x : Blc) : (s.withBlc x).lmn = s.lmn := rfl
@[simp] theorem withBlc_blc (x : Blc) : (s.withBlc x).blc = x := rfl
@[simp] theorem withBlc_ftc (x : Blc) : (s.withBlc x).ftc = s.ftc := rfl
@[simp] theorem withBlc_sen (x : Blc) : (s.withBlc x).sen = s.sen := rfl
@[simp] theorem withBlc_self : s.withBlc s.blc = s := rfl
@[simp] theorem withBlc_withBlc (x y : Blc) : (s.withBlc x).withBlc y = s.withBlc y := rfl

@[simp] theorem withFtc_pending (x : Ftc) : (s.withFtc x).pending = s.pending := rfl
@[simp] theorem withFtc_clock (x : Ftc) : (s.withFtc x).clock = s.clock := rfl
@[simp] theorem withFtc_free (x : Ftc) : (s.withFtc x).free = s.free := rfl
@[simp] theorem withFtc_lrx (x : Ftc) : (s.withFtc x).lrx = s.lrx := rfl
@[simp] theorem withFtc_cpr (x : Ftc) : (s.withFtc x).cpr = s.cpr := rfl
@[simp] theorem withFtc_rtx (x : Ftc) : (s.withFtc x).rtx = s.rtx := rfl
@[simp] theorem withFtc_pst (x : Ftc) : (s.withFtc x).pst = s.pst := rfl
@[simp] theorem withFtc_fq (x : Ftc) : (s.withFtc x).fq = s.fq := rfl
@[simp] theorem withFtc_lst (x : Ftc) : (s.withFtc x).lst = s.lst := rfl
@[simp] theorem withFtc_lanes (x : Ftc) : (s.withFtc x).lanes = s.lanes := rfl
@[simp] theorem withFtc_stu (x : Ftc) : (s.withFtc x).stu = s.stu := rfl
@[simp] theorem withFtc_pfm (x : Ftc) : (s.withFtc x).pfm = s.pfm := rfl
@[simp] theorem withFtc_lmn (x : Ftc) : (s.withFtc x).lmn = s.lmn := rfl
@[simp] theorem withFtc_blc (x : Ftc) : (s.withFtc x).blc = s.blc := rfl
@[simp] theorem withFtc_ftc (x : Ftc) : (s.withFtc x).ftc = x := rfl
@[simp] theorem withFtc_sen (x : Ftc) : (s.withFtc x).sen = s.sen := rfl
@[simp] theorem withFtc_self : s.withFtc s.ftc = s := rfl
@[simp] theorem withFtc_withFtc (x y : Ftc) : (s.withFtc x).withFtc y = s.withFtc y := rfl

@[simp] theorem withSen_pending (x : Sensors) : (s.withSen x).pending = s.pending := rfl
@[simp] theorem withSen_clock (x : Sensors) : (s.withSen x).clock = s.clock := rfl
@[simp] theorem withSen_free (x : Sensors) : (s.withSen x).free = s.free := rfl
@[simp] theorem withSen_lrx (x : Sensors) : (s.withSen x).lrx = s.lrx := rfl
@[simp] theorem withSen_cpr (x : Sensors) : (s.withSen x).cpr = s.cpr := rfl
@[simp] theorem withSen_rtx (x : Sensors) : (s.withSen x).rtx = s.rtx := rfl
@[simp] theorem withSen_pst (x : Sensors) : (s.withSen x).pst = s.pst := rfl
@[simp] theorem withSen_fq (x : Sensors) : (s.withSen x).fq = s.fq := rfl
@[simp] theorem withSen_lst (x : Sensors) : (s.withSen x).lst = s.lst := rfl
@[simp] theorem withSen_lanes (x : Sensors) : (s.withSen x).lanes = s.lanes := rfl
@[simp] theorem withSen_stu (x : Sensors) : (s.withSen x).stu = s.stu := rfl
@[simp] theorem withSen_pfm (x : Sensors) : (s.withSen x).pfm = s.pfm := rfl
@[simp] theorem withSen_lmn (x : Sensors) : (s.withSen x).lmn = s.lmn := rfl
@[simp] theorem withSen_blc (x : Sensors) : (s.withSen x).blc = s.blc := rfl
@[simp] theorem withSen_ftc (x : Sensors) : (s.withSen x).ftc = s.ftc := rfl
@[simp] theorem withSen_sen (x : Sensors) : (s.withSen x).sen = x := rfl
@[simp] theorem withSen_self : s.withSen s.sen = s := rfl
@[simp] theorem withSen_withSen (x y : Sensors) : (s.withSen x).withSen y = s.withSen y := rfl

end Sys2Proof.Machine.State
end

