-- ==== Sys2Proof/Laws/Frames.lean ====
section
/-! SUPPORT. What each shared operation leaves alone: one frame lemma for each, that later proofs cite in place of
unfolding it. -/

namespace Sys2Proof.Machine

open Sys2Proof

/-- Placing positions touches only the lanes and the PFM. -/
theorem placePositions_frame (width : Nat) (l : List Nat) (s : State) :
    let t := l.foldl (placePosition width) s
    t.pending = s.pending ∧ t.clock = s.clock ∧ t.free = s.free ∧ t.lrx = s.lrx ∧ t.cpr = s.cpr ∧
    t.rtx = s.rtx ∧ t.pst = s.pst ∧ t.fq = s.fq ∧ t.lst = s.lst ∧ t.stu = s.stu ∧ t.lmn = s.lmn ∧
    t.blc = s.blc ∧ t.ftc = s.ftc ∧ t.sen = s.sen := by
  induction l generalizing s with
  | nil => simp
  | cons p l ih => simpa [placePosition] using ih (placePosition width s p)

/-- `handNotice` changes nothing but cpr, rtx. -/
@[simp] theorem handNotice_frame (n : Notice) (s : State) :
    (handNotice n s).pending = s.pending ∧ (handNotice n s).clock = s.clock ∧
    (handNotice n s).free = s.free ∧ (handNotice n s).lrx = s.lrx ∧ (handNotice n s).pst = s.pst ∧
    (handNotice n s).fq = s.fq ∧ (handNotice n s).lst = s.lst ∧ (handNotice n s).lanes = s.lanes ∧
    (handNotice n s).stu = s.stu ∧ (handNotice n s).pfm = s.pfm ∧ (handNotice n s).lmn = s.lmn ∧
    (handNotice n s).blc = s.blc ∧ (handNotice n s).ftc = s.ftc ∧ (handNotice n s).sen = s.sen := by
  simp only [handNotice]
  repeat' split
  all_goals simp

/-- `produceNotice` changes nothing but cpr, rtx. -/
@[simp] theorem produceNotice_frame (changed : CondSet) (s : State) :
    (produceNotice changed s).pending = s.pending ∧ (produceNotice changed s).clock = s.clock ∧
    (produceNotice changed s).free = s.free ∧ (produceNotice changed s).lrx = s.lrx ∧
    (produceNotice changed s).pst = s.pst ∧ (produceNotice changed s).fq = s.fq ∧
    (produceNotice changed s).lst = s.lst ∧ (produceNotice changed s).lanes = s.lanes ∧
    (produceNotice changed s).stu = s.stu ∧ (produceNotice changed s).pfm = s.pfm ∧
    (produceNotice changed s).lmn = s.lmn ∧ (produceNotice changed s).blc = s.blc ∧
    (produceNotice changed s).ftc = s.ftc ∧ (produceNotice changed s).sen = s.sen := by
  simp [produceNotice]

/-- `reportValues` changes nothing but cpr, rtx. -/
@[simp] theorem reportValues_frame (v : Conditions) (s : State) :
    (reportValues v s).pending = s.pending ∧ (reportValues v s).clock = s.clock ∧
    (reportValues v s).free = s.free ∧ (reportValues v s).lrx = s.lrx ∧ (reportValues v s).pst = s.pst ∧
    (reportValues v s).fq = s.fq ∧ (reportValues v s).lst = s.lst ∧ (reportValues v s).lanes = s.lanes ∧
    (reportValues v s).stu = s.stu ∧ (reportValues v s).pfm = s.pfm ∧ (reportValues v s).lmn = s.lmn ∧
    (reportValues v s).blc = s.blc ∧ (reportValues v s).ftc = s.ftc ∧ (reportValues v s).sen = s.sen := by
  simp only [reportValues]
  split <;> simp

/-- `observe` changes nothing but cpr, rtx. -/
@[simp] theorem observe_frame (s : State) :
    (observe s).pending = s.pending ∧ (observe s).clock = s.clock ∧ (observe s).free = s.free ∧
    (observe s).lrx = s.lrx ∧ (observe s).pst = s.pst ∧ (observe s).fq = s.fq ∧ (observe s).lst = s.lst ∧
    (observe s).lanes = s.lanes ∧ (observe s).stu = s.stu ∧ (observe s).pfm = s.pfm ∧
    (observe s).lmn = s.lmn ∧ (observe s).blc = s.blc ∧ (observe s).ftc = s.ftc ∧ (observe s).sen = s.sen := by
  simp [observe]

/-- `occur` changes nothing but cpr, rtx. -/
@[simp] theorem occur_frame (c : Condition) (s : State) :
    (occur c s).pending = s.pending ∧ (occur c s).clock = s.clock ∧ (occur c s).free = s.free ∧
    (occur c s).lrx = s.lrx ∧ (occur c s).pst = s.pst ∧ (occur c s).fq = s.fq ∧ (occur c s).lst = s.lst ∧
    (occur c s).lanes = s.lanes ∧ (occur c s).stu = s.stu ∧ (occur c s).pfm = s.pfm ∧
    (occur c s).lmn = s.lmn ∧ (occur c s).blc = s.blc ∧ (occur c s).ftc = s.ftc ∧ (occur c s).sen = s.sen := by
  simp only [occur]
  split <;> simp

/-- `frameStarted` changes nothing but cpr, rtx. -/
@[simp] theorem frameStarted_frame (fsn : Nat) (s : State) :
    (frameStarted fsn s).pending = s.pending ∧ (frameStarted fsn s).clock = s.clock ∧
    (frameStarted fsn s).free = s.free ∧ (frameStarted fsn s).lrx = s.lrx ∧
    (frameStarted fsn s).pst = s.pst ∧ (frameStarted fsn s).fq = s.fq ∧ (frameStarted fsn s).lst = s.lst ∧
    (frameStarted fsn s).lanes = s.lanes ∧ (frameStarted fsn s).stu = s.stu ∧
    (frameStarted fsn s).pfm = s.pfm ∧ (frameStarted fsn s).lmn = s.lmn ∧ (frameStarted fsn s).blc = s.blc ∧
    (frameStarted fsn s).ftc = s.ftc ∧ (frameStarted fsn s).sen = s.sen := by
  simp [frameStarted]

/-- `enqueue` changes nothing but rtx. -/
@[simp] theorem enqueue_frame (b : OutBlock) (s : State) :
    (enqueue b s).pending = s.pending ∧ (enqueue b s).clock = s.clock ∧ (enqueue b s).free = s.free ∧
    (enqueue b s).lrx = s.lrx ∧ (enqueue b s).cpr = s.cpr ∧ (enqueue b s).pst = s.pst ∧
    (enqueue b s).fq = s.fq ∧ (enqueue b s).lst = s.lst ∧ (enqueue b s).lanes = s.lanes ∧
    (enqueue b s).stu = s.stu ∧ (enqueue b s).pfm = s.pfm ∧ (enqueue b s).lmn = s.lmn ∧
    (enqueue b s).blc = s.blc ∧ (enqueue b s).ftc = s.ftc ∧ (enqueue b s).sen = s.sen := by
  simp [enqueue]

/-- `offerRefusal` changes nothing but rtx. -/
@[simp] theorem offerRefusal_frame (code fsn : Nat) (reason : Reason) (s : State) :
    (offerRefusal code fsn reason s).pending = s.pending ∧ (offerRefusal code fsn reason s).clock = s.clock ∧
    (offerRefusal code fsn reason s).free = s.free ∧ (offerRefusal code fsn reason s).lrx = s.lrx ∧
    (offerRefusal code fsn reason s).cpr = s.cpr ∧ (offerRefusal code fsn reason s).pst = s.pst ∧
    (offerRefusal code fsn reason s).fq = s.fq ∧ (offerRefusal code fsn reason s).lst = s.lst ∧
    (offerRefusal code fsn reason s).lanes = s.lanes ∧ (offerRefusal code fsn reason s).stu = s.stu ∧
    (offerRefusal code fsn reason s).pfm = s.pfm ∧ (offerRefusal code fsn reason s).lmn = s.lmn ∧
    (offerRefusal code fsn reason s).blc = s.blc ∧ (offerRefusal code fsn reason s).ftc = s.ftc ∧
    (offerRefusal code fsn reason s).sen = s.sen := by
  simp only [offerRefusal]
  split <;> simp

/-- `countRefused` changes nothing but fq. -/
@[simp] theorem countRefused_frame (s : State) :
    (countRefused s).pending = s.pending ∧ (countRefused s).clock = s.clock ∧
    (countRefused s).free = s.free ∧ (countRefused s).lrx = s.lrx ∧ (countRefused s).cpr = s.cpr ∧
    (countRefused s).rtx = s.rtx ∧ (countRefused s).pst = s.pst ∧ (countRefused s).lst = s.lst ∧
    (countRefused s).lanes = s.lanes ∧ (countRefused s).stu = s.stu ∧ (countRefused s).pfm = s.pfm ∧
    (countRefused s).lmn = s.lmn ∧ (countRefused s).blc = s.blc ∧ (countRefused s).ftc = s.ftc ∧
    (countRefused s).sen = s.sen := by
  simp [countRefused]

/-- `refuseStream` changes nothing but fq, rtx. -/
@[simp] theorem refuseStream_frame (code fsn : Nat) (reason : Reason) (s : State) :
    (refuseStream code fsn reason s).pending = s.pending ∧ (refuseStream code fsn reason s).clock = s.clock ∧
    (refuseStream code fsn reason s).free = s.free ∧ (refuseStream code fsn reason s).lrx = s.lrx ∧
    (refuseStream code fsn reason s).cpr = s.cpr ∧ (refuseStream code fsn reason s).pst = s.pst ∧
    (refuseStream code fsn reason s).lst = s.lst ∧ (refuseStream code fsn reason s).lanes = s.lanes ∧
    (refuseStream code fsn reason s).stu = s.stu ∧ (refuseStream code fsn reason s).pfm = s.pfm ∧
    (refuseStream code fsn reason s).lmn = s.lmn ∧ (refuseStream code fsn reason s).blc = s.blc ∧
    (refuseStream code fsn reason s).ftc = s.ftc ∧ (refuseStream code fsn reason s).sen = s.sen := by
  simp [refuseStream]

/-- `offerReport` changes nothing but fq, rtx. -/
@[simp] theorem offerReport_frame (rep : Report) (s : State) :
    (offerReport rep s).pending = s.pending ∧ (offerReport rep s).clock = s.clock ∧
    (offerReport rep s).free = s.free ∧ (offerReport rep s).lrx = s.lrx ∧ (offerReport rep s).cpr = s.cpr ∧
    (offerReport rep s).pst = s.pst ∧ (offerReport rep s).lst = s.lst ∧ (offerReport rep s).lanes = s.lanes ∧
    (offerReport rep s).stu = s.stu ∧ (offerReport rep s).pfm = s.pfm ∧ (offerReport rep s).lmn = s.lmn ∧
    (offerReport rep s).blc = s.blc ∧ (offerReport rep s).ftc = s.ftc ∧ (offerReport rep s).sen = s.sen := by
  simp only [offerReport]
  split <;> simp

/-- `beginExecution` changes nothing but cpr, rtx. -/
@[simp] theorem beginExecution_frame (s : State) :
    (beginExecution s).pending = s.pending ∧ (beginExecution s).clock = s.clock ∧
    (beginExecution s).free = s.free ∧ (beginExecution s).lrx = s.lrx ∧ (beginExecution s).pst = s.pst ∧
    (beginExecution s).fq = s.fq ∧ (beginExecution s).lst = s.lst ∧ (beginExecution s).lanes = s.lanes ∧
    (beginExecution s).stu = s.stu ∧ (beginExecution s).pfm = s.pfm ∧ (beginExecution s).lmn = s.lmn ∧
    (beginExecution s).blc = s.blc ∧ (beginExecution s).ftc = s.ftc ∧ (beginExecution s).sen = s.sen := by
  simp [beginExecution]

/-- `endWithReply` changes nothing but cpr, rtx. -/
@[simp] theorem endWithReply_frame (tag code : Nat) (a : Answer) (s : State) :
    (endWithReply tag code a s).pending = s.pending ∧ (endWithReply tag code a s).clock = s.clock ∧
    (endWithReply tag code a s).free = s.free ∧ (endWithReply tag code a s).lrx = s.lrx ∧
    (endWithReply tag code a s).pst = s.pst ∧ (endWithReply tag code a s).fq = s.fq ∧
    (endWithReply tag code a s).lst = s.lst ∧ (endWithReply tag code a s).lanes = s.lanes ∧
    (endWithReply tag code a s).stu = s.stu ∧ (endWithReply tag code a s).pfm = s.pfm ∧
    (endWithReply tag code a s).lmn = s.lmn ∧ (endWithReply tag code a s).blc = s.blc ∧
    (endWithReply tag code a s).ftc = s.ftc ∧ (endWithReply tag code a s).sen = s.sen := by
  simp [endWithReply]

/-- `endSilently` changes nothing but cpr, rtx. -/
@[simp] theorem endSilently_frame (s : State) :
    (endSilently s).pending = s.pending ∧ (endSilently s).clock = s.clock ∧ (endSilently s).free = s.free ∧
    (endSilently s).lrx = s.lrx ∧ (endSilently s).pst = s.pst ∧ (endSilently s).fq = s.fq ∧
    (endSilently s).lst = s.lst ∧ (endSilently s).lanes = s.lanes ∧ (endSilently s).stu = s.stu ∧
    (endSilently s).pfm = s.pfm ∧ (endSilently s).lmn = s.lmn ∧ (endSilently s).blc = s.blc ∧
    (endSilently s).ftc = s.ftc ∧ (endSilently s).sen = s.sen := by
  simp [endSilently]

/-- `controlError` changes nothing but cpr, rtx. -/
@[simp] theorem controlError_frame (s : State) :
    (controlError s).pending = s.pending ∧ (controlError s).clock = s.clock ∧
    (controlError s).free = s.free ∧ (controlError s).lrx = s.lrx ∧ (controlError s).pst = s.pst ∧
    (controlError s).fq = s.fq ∧ (controlError s).lst = s.lst ∧ (controlError s).lanes = s.lanes ∧
    (controlError s).stu = s.stu ∧ (controlError s).pfm = s.pfm ∧ (controlError s).lmn = s.lmn ∧
    (controlError s).blc = s.blc ∧ (controlError s).ftc = s.ftc ∧ (controlError s).sen = s.sen := by
  simp [controlError]

/-- `setProfile` changes nothing but pst. -/
@[simp] theorem setProfile_frame (n : Fin 2) (p : ProfileSlot) (s : State) :
    (setProfile n p s).pending = s.pending ∧ (setProfile n p s).clock = s.clock ∧
    (setProfile n p s).free = s.free ∧ (setProfile n p s).lrx = s.lrx ∧ (setProfile n p s).cpr = s.cpr ∧
    (setProfile n p s).rtx = s.rtx ∧ (setProfile n p s).fq = s.fq ∧ (setProfile n p s).lst = s.lst ∧
    (setProfile n p s).lanes = s.lanes ∧ (setProfile n p s).stu = s.stu ∧ (setProfile n p s).pfm = s.pfm ∧
    (setProfile n p s).lmn = s.lmn ∧ (setProfile n p s).blc = s.blc ∧ (setProfile n p s).ftc = s.ftc ∧
    (setProfile n p s).sen = s.sen := by
  simp [setProfile]

/-- `pin` changes nothing but pst. -/
@[simp] theorem pin_frame (n : Fin 2) (s : State) :
    (pin n s).pending = s.pending ∧ (pin n s).clock = s.clock ∧ (pin n s).free = s.free ∧
    (pin n s).lrx = s.lrx ∧ (pin n s).cpr = s.cpr ∧ (pin n s).rtx = s.rtx ∧ (pin n s).fq = s.fq ∧
    (pin n s).lst = s.lst ∧ (pin n s).lanes = s.lanes ∧ (pin n s).stu = s.stu ∧ (pin n s).pfm = s.pfm ∧
    (pin n s).lmn = s.lmn ∧ (pin n s).blc = s.blc ∧ (pin n s).ftc = s.ftc ∧ (pin n s).sen = s.sen := by
  simp [pin]

/-- `unpin` changes nothing but pst. -/
@[simp] theorem unpin_frame (n : Fin 2) (s : State) :
    (unpin n s).pending = s.pending ∧ (unpin n s).clock = s.clock ∧ (unpin n s).free = s.free ∧
    (unpin n s).lrx = s.lrx ∧ (unpin n s).cpr = s.cpr ∧ (unpin n s).rtx = s.rtx ∧ (unpin n s).fq = s.fq ∧
    (unpin n s).lst = s.lst ∧ (unpin n s).lanes = s.lanes ∧ (unpin n s).stu = s.stu ∧
    (unpin n s).pfm = s.pfm ∧ (unpin n s).lmn = s.lmn ∧ (unpin n s).blc = s.blc ∧ (unpin n s).ftc = s.ftc ∧
    (unpin n s).sen = s.sen := by
  simp [unpin]

/-- `abandonSession` changes nothing but pst, cpr. -/
@[simp] theorem abandonSession_frame (s : State) :
    (abandonSession s).pending = s.pending ∧ (abandonSession s).clock = s.clock ∧
    (abandonSession s).free = s.free ∧ (abandonSession s).lrx = s.lrx ∧ (abandonSession s).rtx = s.rtx ∧
    (abandonSession s).fq = s.fq ∧ (abandonSession s).lst = s.lst ∧ (abandonSession s).lanes = s.lanes ∧
    (abandonSession s).stu = s.stu ∧ (abandonSession s).pfm = s.pfm ∧ (abandonSession s).lmn = s.lmn ∧
    (abandonSession s).blc = s.blc ∧ (abandonSession s).ftc = s.ftc ∧ (abandonSession s).sen = s.sen := by
  simp only [abandonSession]
  split <;> simp

/-- `changeRecord` changes nothing but fq. -/
@[simp] theorem changeRecord_frame (fsn : Nat) (f : FrameRecord → FrameRecord) (s : State) :
    (changeRecord fsn f s).pending = s.pending ∧ (changeRecord fsn f s).clock = s.clock ∧
    (changeRecord fsn f s).free = s.free ∧ (changeRecord fsn f s).lrx = s.lrx ∧
    (changeRecord fsn f s).cpr = s.cpr ∧ (changeRecord fsn f s).rtx = s.rtx ∧
    (changeRecord fsn f s).pst = s.pst ∧ (changeRecord fsn f s).lst = s.lst ∧
    (changeRecord fsn f s).lanes = s.lanes ∧ (changeRecord fsn f s).stu = s.stu ∧
    (changeRecord fsn f s).pfm = s.pfm ∧ (changeRecord fsn f s).lmn = s.lmn ∧
    (changeRecord fsn f s).blc = s.blc ∧ (changeRecord fsn f s).ftc = s.ftc ∧
    (changeRecord fsn f s).sen = s.sen := by
  simp [changeRecord]

/-- `releaseFrame` changes nothing but lst. -/
@[simp] theorem releaseFrame_frame (fsn : Nat) (s : State) :
    (releaseFrame fsn s).pending = s.pending ∧ (releaseFrame fsn s).clock = s.clock ∧
    (releaseFrame fsn s).free = s.free ∧ (releaseFrame fsn s).lrx = s.lrx ∧
    (releaseFrame fsn s).cpr = s.cpr ∧ (releaseFrame fsn s).rtx = s.rtx ∧ (releaseFrame fsn s).pst = s.pst ∧
    (releaseFrame fsn s).fq = s.fq ∧ (releaseFrame fsn s).lanes = s.lanes ∧
    (releaseFrame fsn s).stu = s.stu ∧ (releaseFrame fsn s).pfm = s.pfm ∧ (releaseFrame fsn s).lmn = s.lmn ∧
    (releaseFrame fsn s).blc = s.blc ∧ (releaseFrame fsn s).ftc = s.ftc ∧ (releaseFrame fsn s).sen = s.sen := by
  simp [releaseFrame]

/-- `setSlots` changes nothing but lst. -/
@[simp] theorem setSlots_frame (slots : List LineSlot) (s : State) :
    (setSlots slots s).pending = s.pending ∧ (setSlots slots s).clock = s.clock ∧
    (setSlots slots s).free = s.free ∧ (setSlots slots s).lrx = s.lrx ∧ (setSlots slots s).cpr = s.cpr ∧
    (setSlots slots s).rtx = s.rtx ∧ (setSlots slots s).pst = s.pst ∧ (setSlots slots s).fq = s.fq ∧
    (setSlots slots s).lanes = s.lanes ∧ (setSlots slots s).stu = s.stu ∧ (setSlots slots s).pfm = s.pfm ∧
    (setSlots slots s).lmn = s.lmn ∧ (setSlots slots s).blc = s.blc ∧ (setSlots slots s).ftc = s.ftc ∧
    (setSlots slots s).sen = s.sen := by
  simp [setSlots]

/-- `placeTo` changes nothing but lanes, pfm. -/
@[simp] theorem placeTo_frame (ln : PlacedLine) (ticks n : Nat) (s : State) :
    (placeTo ln ticks n s).pending = s.pending ∧ (placeTo ln ticks n s).clock = s.clock ∧
    (placeTo ln ticks n s).free = s.free ∧ (placeTo ln ticks n s).lrx = s.lrx ∧
    (placeTo ln ticks n s).cpr = s.cpr ∧ (placeTo ln ticks n s).rtx = s.rtx ∧
    (placeTo ln ticks n s).pst = s.pst ∧ (placeTo ln ticks n s).fq = s.fq ∧
    (placeTo ln ticks n s).lst = s.lst ∧ (placeTo ln ticks n s).stu = s.stu ∧
    (placeTo ln ticks n s).lmn = s.lmn ∧ (placeTo ln ticks n s).blc = s.blc ∧
    (placeTo ln ticks n s).ftc = s.ftc ∧ (placeTo ln ticks n s).sen = s.sen := by
  simp only [placeTo]
  split
  · simp
  · have h := placePositions_frame ln.width (List.range' ln.placed (n - ln.placed)) s
    simp only at h
    simp [h]

/-- `placeReached` changes nothing but lanes, pfm. -/
@[simp] theorem placeReached_frame (s : State) :
    (placeReached s).pending = s.pending ∧ (placeReached s).clock = s.clock ∧
    (placeReached s).free = s.free ∧ (placeReached s).lrx = s.lrx ∧ (placeReached s).cpr = s.cpr ∧
    (placeReached s).rtx = s.rtx ∧ (placeReached s).pst = s.pst ∧ (placeReached s).fq = s.fq ∧
    (placeReached s).lst = s.lst ∧ (placeReached s).stu = s.stu ∧ (placeReached s).lmn = s.lmn ∧
    (placeReached s).blc = s.blc ∧ (placeReached s).ftc = s.ftc ∧ (placeReached s).sen = s.sen := by
  simp only [placeReached]
  split <;> simp

/-- `advanceTo` changes nothing but clock, lanes, pfm, sen. -/
@[simp] theorem advanceTo_frame (t : Nat) (s : State) :
    (advanceTo t s).pending = s.pending ∧ (advanceTo t s).free = s.free ∧ (advanceTo t s).lrx = s.lrx ∧
    (advanceTo t s).cpr = s.cpr ∧ (advanceTo t s).rtx = s.rtx ∧ (advanceTo t s).pst = s.pst ∧
    (advanceTo t s).fq = s.fq ∧ (advanceTo t s).lst = s.lst ∧ (advanceTo t s).stu = s.stu ∧
    (advanceTo t s).lmn = s.lmn ∧ (advanceTo t s).blc = s.blc ∧ (advanceTo t s).ftc = s.ftc := by
  simp [advanceTo]

/-- `stopLine` changes nothing but pfm, stu. -/
@[simp] theorem stopLine_frame (s : State) :
    (stopLine s).pending = s.pending ∧ (stopLine s).clock = s.clock ∧ (stopLine s).free = s.free ∧
    (stopLine s).lrx = s.lrx ∧ (stopLine s).cpr = s.cpr ∧ (stopLine s).rtx = s.rtx ∧
    (stopLine s).pst = s.pst ∧ (stopLine s).fq = s.fq ∧ (stopLine s).lst = s.lst ∧
    (stopLine s).lanes = s.lanes ∧ (stopLine s).lmn = s.lmn ∧ (stopLine s).blc = s.blc ∧
    (stopLine s).ftc = s.ftc ∧ (stopLine s).sen = s.sen := by
  simp only [stopLine]
  split <;> simp

/-- `darkenOutputs` changes nothing but pfm, stu. -/
@[simp] theorem darkenOutputs_frame (s : State) :
    (darkenOutputs s).pending = s.pending ∧ (darkenOutputs s).clock = s.clock ∧
    (darkenOutputs s).free = s.free ∧ (darkenOutputs s).lrx = s.lrx ∧ (darkenOutputs s).cpr = s.cpr ∧
    (darkenOutputs s).rtx = s.rtx ∧ (darkenOutputs s).pst = s.pst ∧ (darkenOutputs s).fq = s.fq ∧
    (darkenOutputs s).lst = s.lst ∧ (darkenOutputs s).lanes = s.lanes ∧ (darkenOutputs s).lmn = s.lmn ∧
    (darkenOutputs s).blc = s.blc ∧ (darkenOutputs s).ftc = s.ftc ∧ (darkenOutputs s).sen = s.sen := by
  simp [darkenOutputs]

/-- `closeData` changes nothing but fq, lst. -/
@[simp] theorem closeData_frame (fsn : Nat) (s : State) :
    (closeData fsn s).pending = s.pending ∧ (closeData fsn s).clock = s.clock ∧
    (closeData fsn s).free = s.free ∧ (closeData fsn s).lrx = s.lrx ∧ (closeData fsn s).cpr = s.cpr ∧
    (closeData fsn s).rtx = s.rtx ∧ (closeData fsn s).pst = s.pst ∧ (closeData fsn s).lanes = s.lanes ∧
    (closeData fsn s).stu = s.stu ∧ (closeData fsn s).pfm = s.pfm ∧ (closeData fsn s).lmn = s.lmn ∧
    (closeData fsn s).blc = s.blc ∧ (closeData fsn s).ftc = s.ftc ∧ (closeData fsn s).sen = s.sen := by
  simp [closeData]

/-- `removeRecord` changes nothing but fq, lst, pst. -/
@[simp] theorem removeRecord_frame (r : FrameRecord) (s : State) :
    (removeRecord r s).pending = s.pending ∧ (removeRecord r s).clock = s.clock ∧
    (removeRecord r s).free = s.free ∧ (removeRecord r s).lrx = s.lrx ∧ (removeRecord r s).cpr = s.cpr ∧
    (removeRecord r s).rtx = s.rtx ∧ (removeRecord r s).lanes = s.lanes ∧ (removeRecord r s).stu = s.stu ∧
    (removeRecord r s).pfm = s.pfm ∧ (removeRecord r s).lmn = s.lmn ∧ (removeRecord r s).blc = s.blc ∧
    (removeRecord r s).ftc = s.ftc ∧ (removeRecord r s).sen = s.sen := by
  simp [removeRecord]

/-- `stopLineWait` changes nothing but stu. -/
@[simp] theorem stopLineWait_frame (s : State) :
    (stopLineWait s).pending = s.pending ∧ (stopLineWait s).clock = s.clock ∧
    (stopLineWait s).free = s.free ∧ (stopLineWait s).lrx = s.lrx ∧ (stopLineWait s).cpr = s.cpr ∧
    (stopLineWait s).rtx = s.rtx ∧ (stopLineWait s).pst = s.pst ∧ (stopLineWait s).fq = s.fq ∧
    (stopLineWait s).lst = s.lst ∧ (stopLineWait s).lanes = s.lanes ∧ (stopLineWait s).pfm = s.pfm ∧
    (stopLineWait s).lmn = s.lmn ∧ (stopLineWait s).blc = s.blc ∧ (stopLineWait s).ftc = s.ftc ∧
    (stopLineWait s).sen = s.sen := by
  simp [stopLineWait]

/-- `orphanAdvance` changes nothing but ftc. -/
@[simp] theorem orphanAdvance_frame (fsn : Nat) (s : State) :
    (orphanAdvance fsn s).pending = s.pending ∧ (orphanAdvance fsn s).clock = s.clock ∧
    (orphanAdvance fsn s).free = s.free ∧ (orphanAdvance fsn s).lrx = s.lrx ∧
    (orphanAdvance fsn s).cpr = s.cpr ∧ (orphanAdvance fsn s).rtx = s.rtx ∧
    (orphanAdvance fsn s).pst = s.pst ∧ (orphanAdvance fsn s).fq = s.fq ∧ (orphanAdvance fsn s).lst = s.lst ∧
    (orphanAdvance fsn s).lanes = s.lanes ∧ (orphanAdvance fsn s).stu = s.stu ∧
    (orphanAdvance fsn s).pfm = s.pfm ∧ (orphanAdvance fsn s).lmn = s.lmn ∧
    (orphanAdvance fsn s).blc = s.blc ∧ (orphanAdvance fsn s).sen = s.sen := by
  simp only [orphanAdvance]
  split <;> simp

/-- `abortRecord` changes nothing but fq, lst, pst, pfm, stu, ftc, rtx. -/
@[simp] theorem abortRecord_frame (r : FrameRecord) (cause : AbortCause) (s : State) :
    (abortRecord r cause s).pending = s.pending ∧ (abortRecord r cause s).clock = s.clock ∧
    (abortRecord r cause s).free = s.free ∧ (abortRecord r cause s).lrx = s.lrx ∧
    (abortRecord r cause s).cpr = s.cpr ∧ (abortRecord r cause s).lanes = s.lanes ∧
    (abortRecord r cause s).lmn = s.lmn ∧ (abortRecord r cause s).blc = s.blc ∧
    (abortRecord r cause s).sen = s.sen := by
  simp only [abortRecord]
  repeat' split
  all_goals simp

/-- `abortExposing` changes nothing but fq, lst, pst, pfm, stu, ftc, rtx. -/
@[simp] theorem abortExposing_frame (cause : AbortCause) (s : State) :
    (abortExposing cause s).pending = s.pending ∧ (abortExposing cause s).clock = s.clock ∧
    (abortExposing cause s).free = s.free ∧ (abortExposing cause s).lrx = s.lrx ∧
    (abortExposing cause s).cpr = s.cpr ∧ (abortExposing cause s).lanes = s.lanes ∧
    (abortExposing cause s).lmn = s.lmn ∧ (abortExposing cause s).blc = s.blc ∧
    (abortExposing cause s).sen = s.sen := by
  simp only [abortExposing]
  split <;> simp

/-- `abortMoving` changes nothing but fq, lst, pst, pfm, stu, ftc, rtx. -/
@[simp] theorem abortMoving_frame (cause : AbortCause) (s : State) :
    (abortMoving cause s).pending = s.pending ∧ (abortMoving cause s).clock = s.clock ∧
    (abortMoving cause s).free = s.free ∧ (abortMoving cause s).lrx = s.lrx ∧
    (abortMoving cause s).cpr = s.cpr ∧ (abortMoving cause s).lanes = s.lanes ∧
    (abortMoving cause s).lmn = s.lmn ∧ (abortMoving cause s).blc = s.blc ∧
    (abortMoving cause s).sen = s.sen := by
  simp only [abortMoving]
  split <;> (try split) <;> simp

/-- `finishRecord` changes nothing but fq, lst, pst, stu, rtx. -/
@[simp] theorem finishRecord_frame (r : FrameRecord) (s : State) :
    (finishRecord r s).pending = s.pending ∧ (finishRecord r s).clock = s.clock ∧
    (finishRecord r s).free = s.free ∧ (finishRecord r s).lrx = s.lrx ∧ (finishRecord r s).cpr = s.cpr ∧
    (finishRecord r s).lanes = s.lanes ∧ (finishRecord r s).pfm = s.pfm ∧ (finishRecord r s).lmn = s.lmn ∧
    (finishRecord r s).blc = s.blc ∧ (finishRecord r s).ftc = s.ftc ∧ (finishRecord r s).sen = s.sen := by
  simp only [finishRecord]
  split <;> simp

/-- `changeChannel` changes nothing but lmn. -/
@[simp] theorem changeChannel_frame (c : Colour) (f : Channel → Channel) (s : State) :
    (changeChannel c f s).pending = s.pending ∧ (changeChannel c f s).clock = s.clock ∧
    (changeChannel c f s).free = s.free ∧ (changeChannel c f s).lrx = s.lrx ∧
    (changeChannel c f s).cpr = s.cpr ∧ (changeChannel c f s).rtx = s.rtx ∧
    (changeChannel c f s).pst = s.pst ∧ (changeChannel c f s).fq = s.fq ∧ (changeChannel c f s).lst = s.lst ∧
    (changeChannel c f s).lanes = s.lanes ∧ (changeChannel c f s).stu = s.stu ∧
    (changeChannel c f s).pfm = s.pfm ∧ (changeChannel c f s).blc = s.blc ∧
    (changeChannel c f s).ftc = s.ftc ∧ (changeChannel c f s).sen = s.sen := by
  simp [changeChannel]

/-- `emptyStopped` changes nothing but lmn. -/
@[simp] theorem emptyStopped_frame (s : State) :
    (emptyStopped s).pending = s.pending ∧ (emptyStopped s).clock = s.clock ∧
    (emptyStopped s).free = s.free ∧ (emptyStopped s).lrx = s.lrx ∧ (emptyStopped s).cpr = s.cpr ∧
    (emptyStopped s).rtx = s.rtx ∧ (emptyStopped s).pst = s.pst ∧ (emptyStopped s).fq = s.fq ∧
    (emptyStopped s).lst = s.lst ∧ (emptyStopped s).lanes = s.lanes ∧ (emptyStopped s).stu = s.stu ∧
    (emptyStopped s).pfm = s.pfm ∧ (emptyStopped s).blc = s.blc ∧ (emptyStopped s).ftc = s.ftc ∧
    (emptyStopped s).sen = s.sen := by
  simp [emptyStopped]

/-- `composeRequest` changes nothing but pfm. -/
@[simp] theorem composeRequest_frame (s : State) :
    (composeRequest s).pending = s.pending ∧ (composeRequest s).clock = s.clock ∧
    (composeRequest s).free = s.free ∧ (composeRequest s).lrx = s.lrx ∧ (composeRequest s).cpr = s.cpr ∧
    (composeRequest s).rtx = s.rtx ∧ (composeRequest s).pst = s.pst ∧ (composeRequest s).fq = s.fq ∧
    (composeRequest s).lst = s.lst ∧ (composeRequest s).lanes = s.lanes ∧ (composeRequest s).stu = s.stu ∧
    (composeRequest s).lmn = s.lmn ∧ (composeRequest s).blc = s.blc ∧ (composeRequest s).ftc = s.ftc ∧
    (composeRequest s).sen = s.sen := by
  simp only [composeRequest]
  split <;> (try split) <;> simp

/-- `conclude` changes nothing but cpr, rtx, pfm. -/
@[simp] theorem conclude_frame (s : State) :
    (conclude s).pending = s.pending ∧ (conclude s).clock = s.clock ∧ (conclude s).free = s.free ∧
    (conclude s).lrx = s.lrx ∧ (conclude s).pst = s.pst ∧ (conclude s).fq = s.fq ∧ (conclude s).lst = s.lst ∧
    (conclude s).lanes = s.lanes ∧ (conclude s).stu = s.stu ∧ (conclude s).lmn = s.lmn ∧
    (conclude s).blc = s.blc ∧ (conclude s).ftc = s.ftc ∧ (conclude s).sen = s.sen := by
  simp [conclude]

/-- `endUse` changes nothing but pfm. -/
@[simp] theorem endUse_frame (chosen : Colour → Bool) (use : MonitorUse → Bool) (s : State) :
    (endUse chosen use s).pending = s.pending ∧ (endUse chosen use s).clock = s.clock ∧
    (endUse chosen use s).free = s.free ∧ (endUse chosen use s).lrx = s.lrx ∧
    (endUse chosen use s).cpr = s.cpr ∧ (endUse chosen use s).rtx = s.rtx ∧
    (endUse chosen use s).pst = s.pst ∧ (endUse chosen use s).fq = s.fq ∧ (endUse chosen use s).lst = s.lst ∧
    (endUse chosen use s).lanes = s.lanes ∧ (endUse chosen use s).stu = s.stu ∧
    (endUse chosen use s).lmn = s.lmn ∧ (endUse chosen use s).blc = s.blc ∧
    (endUse chosen use s).ftc = s.ftc ∧ (endUse chosen use s).sen = s.sen := by
  simp [endUse]

/-- `endMeasurement` changes nothing but pst, pfm, lmn. -/
@[simp] theorem endMeasurement_frame (m : Measurement) (r : MeasureResult) (s : State) :
    (endMeasurement m r s).pending = s.pending ∧ (endMeasurement m r s).clock = s.clock ∧
    (endMeasurement m r s).free = s.free ∧ (endMeasurement m r s).lrx = s.lrx ∧
    (endMeasurement m r s).cpr = s.cpr ∧ (endMeasurement m r s).rtx = s.rtx ∧
    (endMeasurement m r s).fq = s.fq ∧ (endMeasurement m r s).lst = s.lst ∧
    (endMeasurement m r s).lanes = s.lanes ∧ (endMeasurement m r s).stu = s.stu ∧
    (endMeasurement m r s).blc = s.blc ∧ (endMeasurement m r s).ftc = s.ftc ∧
    (endMeasurement m r s).sen = s.sen := by
  simp [endMeasurement]

/-- `abandonMeasurement` changes nothing but pst, pfm, lmn. -/
@[simp] theorem abandonMeasurement_frame (s : State) :
    (abandonMeasurement s).pending = s.pending ∧ (abandonMeasurement s).clock = s.clock ∧
    (abandonMeasurement s).free = s.free ∧ (abandonMeasurement s).lrx = s.lrx ∧
    (abandonMeasurement s).cpr = s.cpr ∧ (abandonMeasurement s).rtx = s.rtx ∧
    (abandonMeasurement s).fq = s.fq ∧ (abandonMeasurement s).lst = s.lst ∧
    (abandonMeasurement s).lanes = s.lanes ∧ (abandonMeasurement s).stu = s.stu ∧
    (abandonMeasurement s).blc = s.blc ∧ (abandonMeasurement s).ftc = s.ftc ∧
    (abandonMeasurement s).sen = s.sen := by
  simp only [abandonMeasurement]
  split <;> simp

/-- `setBlank` changes nothing but fq, lst, pst, pfm, stu, ftc, rtx, lmn, blc. -/
@[simp] theorem setBlank_frame (t : TriggerSource) (s : State) :
    (setBlank t s).pending = s.pending ∧ (setBlank t s).clock = s.clock ∧ (setBlank t s).free = s.free ∧
    (setBlank t s).lrx = s.lrx ∧ (setBlank t s).cpr = s.cpr ∧ (setBlank t s).lanes = s.lanes ∧
    (setBlank t s).sen = s.sen := by
  simp [setBlank]

/-- `trigger` changes nothing but fq, lst, pst, pfm, stu, ftc, rtx, lmn, blc. -/
@[simp] theorem trigger_frame (t : TriggerSource) (s : State) :
    (trigger t s).pending = s.pending ∧ (trigger t s).clock = s.clock ∧ (trigger t s).free = s.free ∧
    (trigger t s).lrx = s.lrx ∧ (trigger t s).cpr = s.cpr ∧ (trigger t s).lanes = s.lanes ∧
    (trigger t s).sen = s.sen := by
  simp only [trigger]
  split <;> (try split) <;> simp

/-- `enterFault` changes nothing but fq, lst, pst, pfm, stu, ftc, rtx, lmn, blc. -/
@[simp] theorem enterFault_frame (cause : FaultCause) (s : State) :
    (enterFault cause s).pending = s.pending ∧ (enterFault cause s).clock = s.clock ∧
    (enterFault cause s).free = s.free ∧ (enterFault cause s).lrx = s.lrx ∧
    (enterFault cause s).cpr = s.cpr ∧ (enterFault cause s).lanes = s.lanes ∧
    (enterFault cause s).sen = s.sen := by
  simp only [enterFault]
  split <;> simp

/-- `loseLock` changes nothing but fq, lst, pst, pfm, stu, ftc, rtx, lmn, blc. -/
@[simp] theorem loseLock_frame (s : State) :
    (loseLock s).pending = s.pending ∧ (loseLock s).clock = s.clock ∧ (loseLock s).free = s.free ∧
    (loseLock s).lrx = s.lrx ∧ (loseLock s).cpr = s.cpr ∧ (loseLock s).lanes = s.lanes ∧
    (loseLock s).sen = s.sen := by
  simp [loseLock]

/-- `loseSync` changes nothing but fq, lst, pst, pfm, stu, ftc, rtx, lmn, blc. -/
@[simp] theorem loseSync_frame (atIndex : Bool) (s : State) :
    (loseSync atIndex s).pending = s.pending ∧ (loseSync atIndex s).clock = s.clock ∧
    (loseSync atIndex s).free = s.free ∧ (loseSync atIndex s).lrx = s.lrx ∧
    (loseSync atIndex s).cpr = s.cpr ∧ (loseSync atIndex s).lanes = s.lanes ∧
    (loseSync atIndex s).sen = s.sen := by
  simp [loseSync]

/-- `startHoming` changes nothing but ftc, free. -/
@[simp] theorem startHoming_frame (s : State) :
    (startHoming s).pending = s.pending ∧ (startHoming s).clock = s.clock ∧ (startHoming s).lrx = s.lrx ∧
    (startHoming s).cpr = s.cpr ∧ (startHoming s).rtx = s.rtx ∧ (startHoming s).pst = s.pst ∧
    (startHoming s).fq = s.fq ∧ (startHoming s).lst = s.lst ∧ (startHoming s).lanes = s.lanes ∧
    (startHoming s).stu = s.stu ∧ (startHoming s).pfm = s.pfm ∧ (startHoming s).lmn = s.lmn ∧
    (startHoming s).blc = s.blc ∧ (startHoming s).sen = s.sen := by
  simp [startHoming]

/-- `requestHoming` changes nothing but ftc, free. -/
@[simp] theorem requestHoming_frame (s : State) :
    (requestHoming s).pending = s.pending ∧ (requestHoming s).clock = s.clock ∧
    (requestHoming s).lrx = s.lrx ∧ (requestHoming s).cpr = s.cpr ∧ (requestHoming s).rtx = s.rtx ∧
    (requestHoming s).pst = s.pst ∧ (requestHoming s).fq = s.fq ∧ (requestHoming s).lst = s.lst ∧
    (requestHoming s).lanes = s.lanes ∧ (requestHoming s).stu = s.stu ∧ (requestHoming s).pfm = s.pfm ∧
    (requestHoming s).lmn = s.lmn ∧ (requestHoming s).blc = s.blc ∧ (requestHoming s).sen = s.sen := by
  simp only [requestHoming]
  split <;> simp

/-- `requestStep` changes nothing but ftc. -/
@[simp] theorem requestStep_frame (s : State) :
    (requestStep s).pending = s.pending ∧ (requestStep s).clock = s.clock ∧ (requestStep s).free = s.free ∧
    (requestStep s).lrx = s.lrx ∧ (requestStep s).cpr = s.cpr ∧ (requestStep s).rtx = s.rtx ∧
    (requestStep s).pst = s.pst ∧ (requestStep s).fq = s.fq ∧ (requestStep s).lst = s.lst ∧
    (requestStep s).lanes = s.lanes ∧ (requestStep s).stu = s.stu ∧ (requestStep s).pfm = s.pfm ∧
    (requestStep s).lmn = s.lmn ∧ (requestStep s).blc = s.blc ∧ (requestStep s).sen = s.sen := by
  simp only [requestStep]
  split <;> simp

/-- `beginAdvance` changes nothing but ftc, free. -/
@[simp] theorem beginAdvance_frame (perfs : Nat) (origin : AdvanceOrigin) (s : State) :
    (beginAdvance perfs origin s).pending = s.pending ∧ (beginAdvance perfs origin s).clock = s.clock ∧
    (beginAdvance perfs origin s).lrx = s.lrx ∧ (beginAdvance perfs origin s).cpr = s.cpr ∧
    (beginAdvance perfs origin s).rtx = s.rtx ∧ (beginAdvance perfs origin s).pst = s.pst ∧
    (beginAdvance perfs origin s).fq = s.fq ∧ (beginAdvance perfs origin s).lst = s.lst ∧
    (beginAdvance perfs origin s).lanes = s.lanes ∧ (beginAdvance perfs origin s).stu = s.stu ∧
    (beginAdvance perfs origin s).pfm = s.pfm ∧ (beginAdvance perfs origin s).lmn = s.lmn ∧
    (beginAdvance perfs origin s).blc = s.blc ∧ (beginAdvance perfs origin s).sen = s.sen := by
  simp [beginAdvance]

/-- `setStep` changes nothing but fq. -/
@[simp] theorem setStep_frame (fsn : Nat) (p : PositionStep) (s : State) :
    (setStep fsn p s).pending = s.pending ∧ (setStep fsn p s).clock = s.clock ∧
    (setStep fsn p s).free = s.free ∧ (setStep fsn p s).lrx = s.lrx ∧ (setStep fsn p s).cpr = s.cpr ∧
    (setStep fsn p s).rtx = s.rtx ∧ (setStep fsn p s).pst = s.pst ∧ (setStep fsn p s).lst = s.lst ∧
    (setStep fsn p s).lanes = s.lanes ∧ (setStep fsn p s).stu = s.stu ∧ (setStep fsn p s).pfm = s.pfm ∧
    (setStep fsn p s).lmn = s.lmn ∧ (setStep fsn p s).blc = s.blc ∧ (setStep fsn p s).ftc = s.ftc ∧
    (setStep fsn p s).sen = s.sen := by
  simp [setStep]

/-- `positionOn` changes nothing but fq, lst, pst, pfm, stu, ftc, rtx, free. -/
@[simp] theorem positionOn_frame (r : FrameRecord) (s : State) :
    (positionOn r s).pending = s.pending ∧ (positionOn r s).clock = s.clock ∧ (positionOn r s).lrx = s.lrx ∧
    (positionOn r s).cpr = s.cpr ∧ (positionOn r s).lanes = s.lanes ∧ (positionOn r s).lmn = s.lmn ∧
    (positionOn r s).blc = s.blc ∧ (positionOn r s).sen = s.sen := by
  simp only [positionOn]
  split <;> (try split) <;> simp

/-- `advanceEnded` changes nothing but fq, lst, pst, pfm, stu, ftc, rtx, free. -/
@[simp] theorem advanceEnded_frame (origin : Option AdvanceOrigin) (s : State) :
    (advanceEnded origin s).pending = s.pending ∧ (advanceEnded origin s).clock = s.clock ∧
    (advanceEnded origin s).lrx = s.lrx ∧ (advanceEnded origin s).cpr = s.cpr ∧
    (advanceEnded origin s).lanes = s.lanes ∧ (advanceEnded origin s).lmn = s.lmn ∧
    (advanceEnded origin s).blc = s.blc ∧ (advanceEnded origin s).sen = s.sen := by
  simp only [advanceEnded]
  repeat' split
  all_goals simp

/-- `settleEnded` changes nothing but cpr, fq, lst, pst, pfm, stu, ftc, rtx, free, lmn, blc. -/
@[simp] theorem settleEnded_frame (s : State) :
    (settleEnded s).pending = s.pending ∧ (settleEnded s).clock = s.clock ∧ (settleEnded s).lrx = s.lrx ∧
    (settleEnded s).lanes = s.lanes ∧ (settleEnded s).sen = s.sen := by
  simp only [settleEnded]
  split <;> simp

/-- `passTo` changes nothing but clock, lanes, pfm, sen. -/
@[simp] theorem passTo_frame (t : Nat) (s : State) :
    (passTo t s).pending = s.pending ∧ (passTo t s).free = s.free ∧ (passTo t s).lrx = s.lrx ∧
    (passTo t s).cpr = s.cpr ∧ (passTo t s).rtx = s.rtx ∧ (passTo t s).pst = s.pst ∧ (passTo t s).fq = s.fq ∧
    (passTo t s).lst = s.lst ∧ (passTo t s).stu = s.stu ∧ (passTo t s).lmn = s.lmn ∧
    (passTo t s).blc = s.blc ∧ (passTo t s).ftc = s.ftc := by
  simp [passTo]

/-- `inputComes` changes nothing but lrx, sen. -/
@[simp] theorem inputComes_frame (i : Input) (s : State) :
    (inputComes i s).pending = s.pending ∧ (inputComes i s).clock = s.clock ∧
    (inputComes i s).free = s.free ∧ (inputComes i s).cpr = s.cpr ∧ (inputComes i s).rtx = s.rtx ∧
    (inputComes i s).pst = s.pst ∧ (inputComes i s).fq = s.fq ∧ (inputComes i s).lst = s.lst ∧
    (inputComes i s).lanes = s.lanes ∧ (inputComes i s).stu = s.stu ∧ (inputComes i s).pfm = s.pfm ∧
    (inputComes i s).lmn = s.lmn ∧ (inputComes i s).blc = s.blc ∧ (inputComes i s).ftc = s.ftc := by
  simp [inputComes]

/-- `withComing` changes nothing but sen. -/
@[simp] theorem withComing_frame (es : List (Nat × Input)) (s : State) :
    (withComing es s).pending = s.pending ∧ (withComing es s).clock = s.clock ∧
    (withComing es s).free = s.free ∧ (withComing es s).lrx = s.lrx ∧ (withComing es s).cpr = s.cpr ∧
    (withComing es s).rtx = s.rtx ∧ (withComing es s).pst = s.pst ∧ (withComing es s).fq = s.fq ∧
    (withComing es s).lst = s.lst ∧ (withComing es s).lanes = s.lanes ∧ (withComing es s).stu = s.stu ∧
    (withComing es s).pfm = s.pfm ∧ (withComing es s).lmn = s.lmn ∧ (withComing es s).blc = s.blc ∧
    (withComing es s).ftc = s.ftc := by
  simp [withComing]

/-- `takeComing` changes nothing but clock, lrx, lanes, pfm, sen. -/
@[simp] theorem takeComing_frame (t : Nat) (es : List (Nat × Input)) (s : State) :
    (takeComing t es s).pending = s.pending ∧ (takeComing t es s).free = s.free ∧
    (takeComing t es s).cpr = s.cpr ∧ (takeComing t es s).rtx = s.rtx ∧ (takeComing t es s).pst = s.pst ∧
    (takeComing t es s).fq = s.fq ∧ (takeComing t es s).lst = s.lst ∧ (takeComing t es s).stu = s.stu ∧
    (takeComing t es s).lmn = s.lmn ∧ (takeComing t es s).blc = s.blc ∧ (takeComing t es s).ftc = s.ftc := by
  induction es generalizing s with
  | nil => simp [takeComing]
  | cons e rest ih =>
    simp only [takeComing]
    split
    · have h := ih (inputComes e.2 (withComing rest (passTo e.1 s)))
      simp [h]
    · simp

/-- `reach` changes nothing but clock, lrx, lanes, pfm, sen. -/
@[simp] theorem reach_frame (t : Nat) (s : State) :
    (reach t s).pending = s.pending ∧ (reach t s).free = s.free ∧ (reach t s).cpr = s.cpr ∧
    (reach t s).rtx = s.rtx ∧ (reach t s).pst = s.pst ∧ (reach t s).fq = s.fq ∧ (reach t s).lst = s.lst ∧
    (reach t s).stu = s.stu ∧ (reach t s).lmn = s.lmn ∧ (reach t s).blc = s.blc ∧ (reach t s).ftc = s.ftc := by
  simp [reach]

/-- `bring` changes nothing but sen. -/
@[simp] theorem bring_frame (seen : Trace) (s : State) :
    (bring seen s).pending = s.pending ∧ (bring seen s).clock = s.clock ∧ (bring seen s).free = s.free ∧
    (bring seen s).lrx = s.lrx ∧ (bring seen s).cpr = s.cpr ∧ (bring seen s).rtx = s.rtx ∧
    (bring seen s).pst = s.pst ∧ (bring seen s).fq = s.fq ∧ (bring seen s).lst = s.lst ∧
    (bring seen s).lanes = s.lanes ∧ (bring seen s).stu = s.stu ∧ (bring seen s).pfm = s.pfm ∧
    (bring seen s).lmn = s.lmn ∧ (bring seen s).blc = s.blc ∧ (bring seen s).ftc = s.ftc := by
  simp [bring]

/-- `sense` changes nothing but clock, lrx, lanes, pfm, sen. -/
@[simp] theorem sense_frame (seen : Trace) (s : State) :
    (sense seen s).pending = s.pending ∧ (sense seen s).free = s.free ∧ (sense seen s).cpr = s.cpr ∧
    (sense seen s).rtx = s.rtx ∧ (sense seen s).pst = s.pst ∧ (sense seen s).fq = s.fq ∧
    (sense seen s).lst = s.lst ∧ (sense seen s).stu = s.stu ∧ (sense seen s).lmn = s.lmn ∧
    (sense seen s).blc = s.blc ∧ (sense seen s).ftc = s.ftc := by
  simp [sense]

/-- `startCompile` changes nothing but pst, free. -/
@[simp] theorem startCompile_frame (n : Fin 2) (s : State) :
    (startCompile n s).pending = s.pending ∧ (startCompile n s).clock = s.clock ∧
    (startCompile n s).lrx = s.lrx ∧ (startCompile n s).cpr = s.cpr ∧ (startCompile n s).rtx = s.rtx ∧
    (startCompile n s).fq = s.fq ∧ (startCompile n s).lst = s.lst ∧ (startCompile n s).lanes = s.lanes ∧
    (startCompile n s).stu = s.stu ∧ (startCompile n s).pfm = s.pfm ∧ (startCompile n s).lmn = s.lmn ∧
    (startCompile n s).blc = s.blc ∧ (startCompile n s).ftc = s.ftc ∧ (startCompile n s).sen = s.sen := by
  simp only [startCompile]
  split <;> simp

end Sys2Proof.Machine
end

