-- ==== Sys2Proof/Laws/Commands.lean ====
section
/-! SUPPORT. What the execution of a command and the report of changed conditions can do, said once: the lemmas that
proofs about a command's step cite in place of unfolding the outbound queue and the status latch. -/

namespace Sys2Proof.Machine

open Sys2Proof

/-! ## The reserved entry (R14) -/

@[simp] theorem fillReserved_append (r : Reply) (l m : List OutEntry) (h : OutEntry.reserved ∉ l) :
    fillReserved r (l ++ .reserved :: m) = l ++ .block (.reply r) :: m := by
  induction l with
  | nil => rfl
  | cons e l ih =>
    cases e with
    | reserved => simp at h
    | block b => simpa [fillReserved] using ih (by simpa using h)

@[simp] theorem dropReserved_append (l m : List OutEntry) (h : OutEntry.reserved ∉ l) :
    dropReserved (l ++ .reserved :: m) = l ++ m := by
  induction l with
  | nil => rfl
  | cons e l ih =>
    cases e with
    | reserved => simp at h
    | block b => simpa [dropReserved] using ih (by simpa using h)

/-- Execution that begins and ends with an answer takes the block from the FIFO and queues its REPLY. -/
theorem endWithReply_beginExecution (tag code : Nat) (a : Answer) (s : State)
    (h : OutEntry.reserved ∉ s.rtx.entries) :
    endWithReply tag code a (beginExecution s) = answeredWith tag code a s := by
  simp [endWithReply, beginExecution, answeredWith, State.withRtx, State.withCpr, h]

/-- Execution that begins and ends without an answer takes the block from the FIFO. -/
theorem endSilently_beginExecution (s : State) (h : OutEntry.reserved ∉ s.rtx.entries) :
    endSilently (beginExecution s) = takenSilently s := by
  simp [endSilently, beginExecution, takenSilently, State.withRtx, State.withCpr, h]

/-- A command that is ready is handed to its owner with its argument bytes. -/
theorem runOwner_ready {tag code : Nat} {args : List Byte} {s : State} (h : CommandReady tag code args s)
    (owner : List Byte → State → Answer × State) :
    runOwner code owner s =
      endWithReply tag code (owner args (beginExecution s)).1 (owner args (beginExecution s)).2 := by
  obtain ⟨hf, he, hl, -⟩ := h
  have hm : mayExecute s = true := by
    have : s.cpr.fifo ≠ [] := by
      intro h0
      simp [headCommand, h0] at hf
    simp [mayExecute, he, occupancy, hl, this]
  simp [runOwner, hf, hm]

/-- A command that is ready, with the argument bytes of its layout, is handed to its owner. -/
theorem runCommand_ready {tag code : Nat} {args : List Byte} {s : State} (h : CommandReady tag code args s)
    (arity : Nat) (owner : List Byte → State → Answer × State) (ha : args.length = arity) :
    runCommand code arity owner s =
      endWithReply tag code (owner args (beginExecution s)).1 (owner args (beginExecution s)).2 := by
  rw [runCommand, runOwner_ready h]
  simp [withArity, ha]

/-- A command that is ready, with another number of argument bytes than its layout has, is refused with BAD_ARGUMENT and
changes nothing else (R191). -/
theorem runCommand_badArity {tag code : Nat} {args : List Byte} {s : State} (h : CommandReady tag code args s)
    (arity : Nat) (owner : List Byte → State → Answer × State) (ha : args.length ≠ arity) :
    runCommand code arity owner s = answeredWith tag code (refused .badArgument) s := by
  rw [runCommand, runOwner_ready h, ← endWithReply_beginExecution tag code _ s h.2.2.2]
  simp [withArity, ha]

/-! ## A REPLY and a NOTICE commute: each keeps to its own entry -/

@[simp] theorem fillReserved_length (r : Reply) (l : List OutEntry) : (fillReserved r l).length = l.length := by
  induction l with
  | nil => rfl
  | cons e l ih => cases e <;> simp [fillReserved, ih]

@[simp] theorem fillReserved_any (r : Reply) (l : List OutEntry) :
    (fillReserved r l).any isNotice = l.any isNotice := by
  induction l with
  | nil => rfl
  | cons e l ih => cases e <;> simp [fillReserved, ih, isNotice]

theorem fillReserved_concat (r : Reply) (b : OutBlock) (l : List OutEntry) :
    fillReserved r (l ++ [.block b]) = fillReserved r l ++ [.block b] := by
  induction l with
  | nil => rfl
  | cons e l ih => cases e <;> simp [fillReserved, ih]

theorem fillReserved_merge (r : Reply) (n : Notice) (l : List OutEntry) :
    fillReserved r (l.map (mergeEntry n)) = (fillReserved r l).map (mergeEntry n) := by
  induction l with
  | nil => rfl
  | cons e l ih =>
    cases e with
    | reserved => rfl
    | block b => cases b <;> simp [fillReserved, mergeEntry, ih]

/-- Writing a REPLY into its reserved entry commutes with handing on a NOTICE. -/
theorem endWithReply_handNotice (tag code : Nat) (a : Answer) (n : Notice) (s : State) :
    endWithReply tag code a (handNotice n s) = handNotice n (endWithReply tag code a s) := by
  obtain ⟨pending, clock, free, lrx, cpr, ⟨entries, sending, lane, dropped⟩, pst, fq, lst, lanes, stu, pfm, lmn,
    blc, ftc, sen⟩ := s
  have tailAny : ∀ r : Reply, (fillReserved r entries).tail.any isNotice = entries.tail.any isNotice := by
    intro r
    cases entries with
    | nil => rfl
    | cons e l => cases e <;> simp [fillReserved]
  cases sending
  · simp only [handNotice, endWithReply, unsent, State.withRtx, State.withCpr, fillReserved_any,
      fillReserved_length, Bool.false_eq_true, if_false, List.nil_append]
    cases h : entries.any isNotice
    · cases hw : cpr.waitingNotice
      · by_cases hl : entries.length < Config.outboundDepth
        · simp [hl, fillReserved_concat, hw]
        · simp [hl]
      · simp
    · simp [fillReserved_merge]
  · simp only [handNotice, endWithReply, unsent, State.withRtx, State.withCpr, fillReserved_length, if_true,
      tailAny]
    cases h : entries.tail.any isNotice
    · cases hw : cpr.waitingNotice
      · by_cases hl : entries.length < Config.outboundDepth
        · simp [hl, fillReserved_concat, hw]
        · simp [hl]
      · simp
    · cases entries with
      | nil => simp at h
      | cons e l => cases e <;> simp [fillReserved, fillReserved_merge]

theorem endWithReply_produceNotice (tag code : Nat) (a : Answer) (set : CondSet) (s : State) :
    endWithReply tag code a (produceNotice set s) = produceNotice set (endWithReply tag code a s) := by
  simp only [produceNotice, endWithReply_handNotice]
  rfl

theorem endWithReply_reportValues (tag code : Nat) (a : Answer) (v : Conditions) (s : State) :
    endWithReply tag code a (reportValues v s) = reportValues v (endWithReply tag code a s) := by
  simp only [reportValues]
  split
  · next h => rw [if_pos (by simpa [endWithReply] using h)]; rfl
  · next h => rw [if_neg (by simpa [endWithReply] using h), endWithReply_produceNotice]; rfl

theorem endWithReply_observe (tag code : Nat) (a : Answer) (s : State) :
    endWithReply tag code a (observe s) = observe (endWithReply tag code a s) := by
  simp only [observe, endWithReply_reportValues]
  rfl

theorem endWithReply_composeRequest (tag code : Nat) (a : Answer) (s : State) :
    endWithReply tag code a (composeRequest s) = composeRequest (endWithReply tag code a s) := by
  cases hp : s.pfm.request with
  | some q => simp [composeRequest, hp, endWithReply]
  | none =>
    cases hn : anyColour fun c => (neededShot s c).isSome
    · have : (anyColour fun c => (neededShot (endWithReply tag code a s) c).isSome) = false := hn
      simp only [composeRequest, hp, hn, this, Bool.false_eq_true, if_false]
      simp [endWithReply, hp]
    · have : (anyColour fun c => (neededShot (endWithReply tag code a s) c).isSome) = true := hn
      simp only [composeRequest, hp, hn, this, if_true]
      simp only [endWithReply, State.withRtx_pfm, State.withCpr_pfm, hp]
      rfl

/-- Writing a REPLY commutes with what ends a step. -/
theorem endWithReply_conclude (tag code : Nat) (a : Answer) (s : State) :
    endWithReply tag code a (conclude s) = conclude (endWithReply tag code a s) := by
  simp only [conclude, endWithReply_observe, endWithReply_composeRequest]

/-! ## What reporting changed conditions can do (R17, R26, R27) -/

theorem mergeEntry_other (n : Notice) (e : OutEntry) (h : isNotice e = false) : mergeEntry n e = e := by
  cases e with
  | reserved => rfl
  | block b => cases b <;> simp_all [isNotice, mergeEntry]

theorem noticed_refl (s : State) : Noticed s s := by simp +contextual [Noticed, CprNoticed]

theorem Noticed.trans {s t u : State} (h : Noticed s t) (k : Noticed t u) : Noticed s u := by
  obtain ⟨⟨a1, a2, a3, a4, a5, a6, a7⟩, b1, b2, b3, b4⟩ := h
  obtain ⟨⟨c1, c2, c3, c4, c5, c6, c7⟩, d1, d2, d3, d4⟩ := k
  exact ⟨⟨c1.trans a1, c2.trans a2, c3.trans a3, c4.trans a4, c5.trans a5, c6.trans a6, c7.trans a7⟩,
    d1.trans b1, d2.trans b2, d3.trans b3, fun i e he hn => d4 i e (b4 i e he hn) hn⟩

theorem noticed_handNotice (n : Notice) (s : State) : Noticed s (handNotice n s) := by
  simp only [handNotice]
  split
  · refine ⟨by simp [CprNoticed], rfl, rfl, rfl, fun i e he hn => ?_⟩
    simp only [State.withRtx_rtx]
    cases hs : s.rtx.sending
    · simp [unsent, hs, he, mergeEntry_other n e hn]
    · cases hl : s.rtx.entries with
      | nil => simp [hl] at he
      | cons x xs =>
        rw [hl] at he
        cases i with
        | zero => simpa using he
        | succ i => simp at he; simp [unsent, hs, hl, he, mergeEntry_other n e hn]
  · split
    · simp +contextual [Noticed, CprNoticed]
    · split
      · refine ⟨by simp [CprNoticed], rfl, rfl, rfl, fun i e he hn => ?_⟩
        have hi : i < s.rtx.entries.length := by
          have := List.getElem?_eq_some_iff.mp he; exact this.1
        simp [List.getElem?_append_left hi, he]
      · simp +contextual [Noticed, CprNoticed]

theorem noticed_reportValues (v : Conditions) (s : State) : Noticed s (reportValues v s) := by
  simp only [reportValues]
  split
  · simp +contextual [Noticed, CprNoticed]
  · simp only [produceNotice]
    refine Noticed.trans ?_ (noticed_handNotice _ _)
    simp +contextual [Noticed, CprNoticed]

@[simp] theorem handNotice_current (n : Notice) (s : State) : (handNotice n s).cpr.current = s.cpr.current := by
  simp only [handNotice]
  repeat' split
  all_goals simp

@[simp] theorem reportValues_current (v : Conditions) (s : State) : (reportValues v s).cpr.current = v := by
  simp only [reportValues]
  split <;> simp [produceNotice]

theorem told_observe (s : State) : Told s (observe s) := by
  refine ⟨noticed_reportValues _ _, ?_⟩
  have : (observe s).cpr.current = ownerValues s := by simp [observe]
  simp only [CopyIsCurrent, this]
  simp [ownerValues, this]

theorem composeRequest_cpr (s : State) : (composeRequest s).cpr = s.cpr ∧ (composeRequest s).rtx = s.rtx := by
  simp

/-- What a colour needs of the coming retrace depends on the lasers, the profile slots, the polygon, the latch and the
exposing record alone. -/
theorem neededShot_congr {s t : State} (hl : t.lmn = s.lmn) (hp : t.pst = s.pst) (hs : t.stu = s.stu)
    (hb : t.blc = s.blc) (hf : t.fq = s.fq) : neededShot t = neededShot s := by
  funext c
  simp [neededShot, measureShot, captureProceeds, loopRuns, loopsAllowed, isExposing, exposing, oldest, profile, hl, hp,
    hs, hb, hf]

/-- The request that a step posts names what the colours then need. -/
theorem RequestComposed.of_eq {s t : State} (hr : t.pfm.request = s.pfm.request) (hl : t.lmn = s.lmn)
    (hp : t.pst = s.pst) (hs : t.stu = s.stu) (hb : t.blc = s.blc) (hf : t.fq = s.fq) (h : RequestComposed s) :
    RequestComposed t := by
  simpa only [RequestComposed, hr, neededShot_congr hl hp hs hb hf] using h

theorem anyColour_iff (p : Colour → Bool) : anyColour p = true ↔ ∃ c, p c = true := by
  simp only [anyColour, Bool.or_eq_true]
  exact ⟨fun h => by rcases h with (h | h) | h <;> exact ⟨_, h⟩, fun ⟨c, h⟩ => by cases c <;> simp [h]⟩

theorem monitorAsked_composeRequest (s : State) : MonitorAsked s (composeRequest s) := by
  simp only [composeRequest]
  split
  · next h => exact ⟨rfl, fun _ => rfl, fun hn => by simp [h] at hn⟩
  · next h =>
    split
    · next hn =>
      rw [anyColour_iff] at hn
      refine ⟨rfl, by simp [h], fun _ => ⟨fun _ => ?_, fun hno => ?_⟩⟩
      · rw [neededShot_congr (s := s)] <;> rfl
      · rw [neededShot_congr (s := s)] at hno <;> first | rfl | simp [hno] at hn
    · next hn =>
      rw [anyColour_iff] at hn
      exact ⟨rfl, fun _ => rfl, fun _ => ⟨fun ⟨c, hc⟩ => absurd ⟨c, Option.isSome_iff_ne_none.2 hc⟩ hn, fun _ => h⟩⟩

/-- What ends a step: the owners' values are reported, a monitor request may be posted, and nothing else changes. -/
theorem conclude_spec (s : State) :
    Told s (conclude s) ∧ MonitorAsked s (conclude s) ∧ SameBut [.cpr, .rtx, .pfm] s (conclude s) := by
  have hc := composeRequest_cpr s
  refine ⟨?_, ?_, ?_⟩
  · have h := told_observe (composeRequest s)
    simp only [Told, Noticed, CprNoticed, hc.1, hc.2] at h
    exact h
  · have h := monitorAsked_composeRequest s
    exact ⟨by simpa [conclude] using h.1, by simpa [conclude] using h.2.1, fun hn =>
      (h.2.2 hn).of_eq (by simp [conclude]) (by simp [conclude]) (by simp [conclude]) (by simp [conclude])
        (by simp [conclude]) (by simp [conclude])⟩
  · intro p hp
    cases p <;> simp_all [samePart, conclude]

end Sys2Proof.Machine
end

