-- ==== Sys2Proof/Laws/Fields.lean ====
section
/-! SUPPORT. Values per colour and the fields of a payload: what reads back from what was written, and the two forms of
a limit. -/

namespace Sys2Proof

/-! ## Values per colour -/

@[simp] theorem PerColour.get_of {α : Type} (f : Colour → α) (c : Colour) : (PerColour.of f).get c = f c := by
  cases c <;> rfl

@[simp] theorem PerColour.get_map {α β : Type} (f : α → β) (p : PerColour α) (c : Colour) :
    (p.map f).get c = f (p.get c) := by
  cases c <;> rfl

@[simp] theorem PerColour.get_all {α : Type} (a : α) (c : Colour) : (PerColour.all a).get c = a := by
  cases c <;> rfl

@[simp] theorem PerColour.get_set {α : Type} (p : PerColour α) (c d : Colour) (a : α) :
    (p.set c a).get d = if d = c then a else p.get d := by
  cases c <;> cases d <;> rfl

/-- Values per colour that agree on every colour are equal. -/
theorem PerColour.ext_get {α : Type} {p q : PerColour α} (h : ∀ c, p.get c = q.get c) : p = q := by
  obtain ⟨p1, p2, p3⟩ := p
  obtain ⟨q1, q2, q3⟩ := q
  have h1 : p1 = q1 := h .red
  have h2 : p2 = q2 := h .green
  have h3 : p3 = q3 := h .blue
  rw [h1, h2, h3]

namespace Machine

/-! ## Fields (R190) -/

/-- The first byte of a payload. -/
theorem field_head (b : Byte) (l : List Byte) : field (b :: l) 0 1 = b.toNat := by simp [field, beNat]

/-- A number written in one byte reads back, wherever it stands. -/
theorem field_be1 {n : Nat} (h : n < 256) (before after : List Byte) :
    field (before ++ be1 n ++ after) before.length 1 = n := by
  simp [field, be1, beNat, Nat.mod_eq_of_lt h]

/-- A number written in two bytes reads back, wherever it stands. -/
theorem field_be2 {n : Nat} (h : n < 65536) (before after : List Byte) :
    field (before ++ be2 n ++ after) before.length 2 = n := by
  simp [field, be2, beNat]
  omega

/-- A number written in four bytes reads back, wherever it stands. -/
theorem field_be4 {n : Nat} (h : n < 4294967296) (before after : List Byte) :
    field (before ++ be4 n ++ after) before.length 4 = n := by
  simp [field, be4, be2, beNat]
  omega

/-- A signed number written in two bytes reads back, wherever it stands. -/
theorem sfield_beSigned {i : Int} (h : -32768 ≤ i) (k : i < 32768) (before after : List Byte) :
    sfield (before ++ beSigned i ++ after) before.length = i := by
  simp only [sfield, beSigned]
  rw [field_be2 (by omega)]
  simp only [signed16]
  split <;> omega

/-! ## Limits (R24) -/

theorem limit_eq_max_min {lo hi n : Nat} (h : lo ≤ hi) : limit lo hi n = max lo (min hi n) := by
  simp only [limit]
  split
  · omega
  · split <;> omega

theorem limitInt_eq_max_min {lo hi i : Int} (h : lo ≤ hi) : limitInt lo hi i = max lo (min hi i) := by
  simp only [limitInt]
  split
  · omega
  · split <;> omega

end Machine

end Sys2Proof
end

