-- ==== Sys2Proof/Laws/Ops.lean ====
section
/-! SUPPORT. What the shared operations can do, said once for each: time and placing, profile slots, reports and aborts,
the monitor request, the end of a step and the execution of a command. -/

namespace Sys2Proof.Machine

open Sys2Proof

/-! ## Which parts change -/

theorem SameBut.trans {l : List Part} {s t u : State} (h : SameBut l s t) (k : SameBut l t u) : SameBut l s u := by
  intro p hp
  have a := h p hp
  have b := k p hp
  cases p <;> exact b.trans a

theorem SameBut.mono {l m : List Part} {s t : State} (h : SameBut l s t) (hm : ∀ p ∈ l, p ∈ m) :
    SameBut m s t :=
  fun p hp => h p fun hl => hp (hm p hl)

/-! ## Guards as plain facts -/

theorem entryFree_iff (s : State) : entryFree s = true ↔ s.rtx.entries.length < 32 := decide_eq_true_iff

theorem entryFree_eq_false_iff (s : State) : entryFree s = false ↔ 32 ≤ s.rtx.entries.length := by
  rw [← Bool.not_eq_true, entryFree_iff]
  omega

theorem reportWaiting_eq_false_iff (s : State) :
    reportWaiting s = false ↔ s.fq.backlog = [] ∧ ∀ r ∈ s.fq.records, r.exposure ≠ .finished := by
  simp [reportWaiting, List.isEmpty_iff]

theorem mayExecute_iff (s : State) :
    mayExecute s = true ↔
      s.cpr.fifo ≠ [] ∧ s.cpr.executing = none ∧ s.rtx.entries.length ≤ 23 := by
  simp only [mayExecute, Bool.and_eq_true, decide_eq_true_eq, and_assoc]
  constructor <;> intro h <;> simpa [occupancy, Config.executeLimit] using h

theorem isExposing_iff (s : State) :
    isExposing s = true ↔ ∃ r rest, s.fq.records = r :: rest ∧ r.exposure = .exposing := by
  simp only [isExposing, exposing, oldest]
  cases h : s.fq.records with
  | nil => simp
  | cons r rest => by_cases hx : r.exposure = .exposing <;> simp [hx]

theorem oldest_cons {s : State} {r : FrameRecord} {rest : List FrameRecord} (h : s.fq.records = r :: rest) :
    oldest s = some r := by
  simp [oldest, h]

theorem exposing_cons {s : State} {r : FrameRecord} {rest : List FrameRecord} (h : s.fq.records = r :: rest)
    (hx : r.exposure = .exposing) : exposing s = some r := by
  simp [exposing, oldest, h, hx]

theorem record_eq_some {n : Nat} {s : State} {r : FrameRecord} (h : record n s = some r) :
    r ∈ s.fq.records ∧ r.fsn = n :=
  ⟨List.mem_of_find?_eq_some h, by simpa using List.find?_some h⟩

/-! ## Time and placing (R118, R139 to R146) -/

/-- The clock moved on with the sensors sampled, before anything is placed. -/
def clockedTo (t : Nat) (s : State) : State :=
  (s.withSen (passSensors s.clock (max s.clock t) s.sen)).withClock (max s.clock t)

/-- Where no line is being placed, time moves the clock and samples the sensors alone. -/
theorem advanceTo_none {t : Nat} {s : State} (h : s.pfm.line = none) : advanceTo t s = clockedTo t s := by
  simp [advanceTo, placeReached, h, clockedTo]

/-- Where a line is being placed, its positions are placed at the moment reached. -/
theorem advanceTo_some {t : Nat} {s : State} {ln : PlacedLine} (h : s.pfm.line = some ln) :
    advanceTo t s = placeTo ln (ticksSince ln.edge (clockedTo t s))
      (positionsBegun ln (ticksSince ln.edge (clockedTo t s))) (clockedTo t s) := by
  simp [advanceTo, placeReached, h, clockedTo]

theorem placeReached_some {s : State} {ln : PlacedLine} (h : s.pfm.line = some ln) :
    placeReached s = placeTo ln (ticksSince ln.edge s) (positionsBegun ln (ticksSince ln.edge s)) s := by
  simp only [placeReached, h]

/-- Of a lane, placing changes its three counts alone. -/
theorem countLane_keeps (l : Lane) (r : LaneResult) :
    (countLane l r).trim = l.trim ∧ (countLane l r).pendingTrim = l.pendingTrim ∧
    (countLane l r).offset = l.offset ∧ (countLane l r).source = l.source ∧
    (countLane l r).holdBuffer = l.holdBuffer ∧ (countLane l r).slot = l.slot := by
  cases r <;> simp [countLane]

theorem placeLane_keeps (g : Nat) (pl : PulseLane) (r : LaneResult) :
    (placeLane g pl r).horizontal = pl.horizontal ∧
    (placeLane g pl r).horizontalPending = pl.horizontalPending := by
  cases r <;> simp [placeLane]

theorem placePositions_keeps (width : Nat) (l : List Nat) (s : State) :
    PlacingKeeps s (l.foldl (placePosition width) s) := by
  induction l generalizing s with
  | nil => simp [PlacingKeeps]
  | cons p l ih =>
    obtain ⟨a1, a2, a3, a4, a5, a6, b⟩ := ih (placePosition width s p)
    refine ⟨a1, a2, a3, a4, a5, a6, fun c => ?_⟩
    obtain ⟨b1, b2, b3, b4, b5, b6, b7, b8⟩ := b c
    rw [List.foldl_cons, b1, b2, b3, b4, b5, b6, b7, b8]
    simp [placePosition, countLane_keeps, placeLane_keeps]

theorem placeTo_keeps (ln : PlacedLine) (ticks n : Nat) (s : State) (h : s.pfm.line = some ln) :
    PlacingKeeps s (placeTo ln ticks n s) := by
  simp only [placeTo]
  split
  · simp [PlacingKeeps]
  · obtain ⟨a1, a2, a3, a4, a5, a6, b⟩ :=
      placePositions_keeps ln.width (List.range' ln.placed (n - ln.placed)) s
    refine ⟨a1, by simp [h, sameLine], a3, a4, a5, a6, fun c => ?_⟩
    simpa [openAt] using b c

/-- Time passing changes nothing that placing leaves alone. -/
theorem advanceTo_keeps (t : Nat) (s : State) : PlacingKeeps s (advanceTo t s) := by
  cases h : s.pfm.line with
  | none => rw [advanceTo_none h]; simp [PlacingKeeps, h, clockedTo]
  | some ln =>
    rw [advanceTo_some h]
    exact placeTo_keeps ln _ _ (clockedTo t s) h

@[simp] theorem advanceTo_clock (t : Nat) (s : State) : (advanceTo t s).clock = max s.clock t := by
  cases h : s.pfm.line with
  | none => rw [advanceTo_none h]; rfl
  | some ln => rw [advanceTo_some h]; simp [clockedTo]

@[simp] theorem advanceTo_sen (t : Nat) (s : State) :
    (advanceTo t s).sen = passSensors s.clock (max s.clock t) s.sen := by
  cases h : s.pfm.line with
  | none => rw [advanceTo_none h]; rfl
  | some ln => rw [advanceTo_some h]; simp [clockedTo]

/-! ## Profile slots (Chapter 3) -/

theorem fin2_cases (n : Fin 2) : n = 0 ∨ n = 1 := by omega

@[simp] theorem profile_setProfile (n m : Fin 2) (p : ProfileSlot) (s : State) :
    profile (setProfile n p s) m = if m = n then p else profile s m := by
  rcases fin2_cases n with rfl | rfl <;> rcases fin2_cases m with rfl | rfl <;> simp [profile, setProfile]

@[simp] theorem session_setProfile (n : Fin 2) (p : ProfileSlot) (s : State) :
    (setProfile n p s).pst.session = s.pst.session := by
  simp only [setProfile, State.withPst_pst]
  split <;> rfl

/-! ## Reports and aborts (R88 to R91) -/

/-- A report that is offered takes a free entry where none waits before it, and otherwise joins the backlog. -/
theorem offerReport_spec (rep : Report) (s : State) :
    (s.rtx.entries.length < 32 → reportWaiting s = false →
      offerReport rep s = s.withRtx { s.rtx with entries := s.rtx.entries ++ [.block (.report rep)] }) ∧
    (32 ≤ s.rtx.entries.length ∨ reportWaiting s = true →
      offerReport rep s = s.withFq { s.fq with backlog := s.fq.backlog ++ [rep] }) := by
  constructor
  · intro h k
    rw [← entryFree_iff] at h
    simp [offerReport, h, k, enqueue]
  · intro h
    rw [← entryFree_eq_false_iff] at h
    rcases h with h | h <;> simp [offerReport, h]

theorem orphanAdvance_eq (fsn : Nat) (s : State) :
    orphanAdvance fsn s =
      s.withFtc { s.ftc with origin := if s.ftc.origin = some (.frame fsn) then some .command else s.ftc.origin } := by
  simp only [orphanAdvance]
  split <;> rfl

/-- An aborted record is taken out of the queue and out of every part that holds something for it, before its report is
offered (R89 steps 1 to 5). -/
def takenOut (r : FrameRecord) (s : State) : State :=
  let s := if r.data = .opened then s.withLst { s.lst with abortedFsn := some r.fsn } else s
  let s := if r.exposure = .exposing then stopLineWait (stopLine s) else s
  orphanAdvance r.fsn (removeRecord r s)

/-- An abort takes the record out, offers its report, and holds the queue where the record was moving (R89). -/
theorem abortRecord_eq (r : FrameRecord) (cause : AbortCause) (s : State) :
    abortRecord r cause s =
      (let t := offerReport (reportOf (abortedRecord r) (some cause) s) (takenOut r s)
       if r.exposure = .positioning ∨ r.exposure = .exposing then t.withFq { t.fq with held := true } else t) := rfl

theorem stopLine_stu (s : State) : (stopLine s).stu = { s.stu with writing := none } := by
  simp only [stopLine]
  split <;> simp

theorem stopLine_pfm (s : State) :
    (stopLine s).pfm = { s.pfm with
      line := none
      lanes := if s.pfm.line.isSome then s.pfm.lanes.map closePulse else s.pfm.lanes } := by
  cases h : s.pfm.line with
  | none =>
    have : s.pfm = { s.pfm with line := none } := by rw [← h]
    simpa [stopLine, h] using this
  | some ln => simp [stopLine, h]

/-- Everything that taking a record out does. -/
theorem takenOut_spec (r : FrameRecord) (s : State) :
    let t := takenOut r s
    t.fq = { s.fq with records := s.fq.records.filter fun q => q.fsn != r.fsn } ∧
    t.ftc = { s.ftc with
      origin := if s.ftc.origin = some (.frame r.fsn) then some .command else s.ftc.origin } ∧
    t.stu = (if r.exposure = .exposing then { s.stu with lineWait := none, writing := none } else s.stu) ∧
    (r.exposure ≠ .exposing → t.pfm = s.pfm) ∧ (r.exposure = .exposing → t.pfm.line = none) ∧
    t.pfm.request = s.pfm.request ∧
    (r.exposure = .exposing →
      t.pfm.lanes = if s.pfm.line.isSome then s.pfm.lanes.map closePulse else s.pfm.lanes) ∧
    t.lst = followHold { s.lst with
      slots := s.lst.slots.map (fun sl => if sl.state ≠ .free ∧ sl.fsn = some r.fsn then LineSlot.empty else sl)
      abortedFsn := if r.data = .opened then some r.fsn else s.lst.abortedFsn } ∧
    (∀ n, profile t n =
      if n = r.slot then { profile s r.slot with pins := (profile s r.slot).pins - 1 } else profile s n) ∧
    t.pst.session = s.pst.session ∧ SameBut [.pst, .fq, .lst, .stu, .pfm, .ftc] s t := by
  have holds : ∀ sl : LineSlot, holdsFrame r.fsn sl = decide (sl.state ≠ .free ∧ sl.fsn = some r.fsn) := by
    intro sl
    rw [Bool.eq_iff_iff]
    simp [holdsFrame]
  simp only [takenOut, orphanAdvance_eq, removeRecord, releaseFrame, unpin]
  refine ⟨?_, ?_, ?_, ?_, ?_, ?_, ?_, ?_, ?_, ?_, ?_⟩
  · split <;> split <;> simp
  · split <;> split <;> simp
  · split <;> split <;> simp [stopLineWait, stopLine_stu]
  · intro h
    simp only [h, if_false]
    split <;> simp
  · intro h
    simp only [h, if_true, stopLineWait]
    split <;> simp [stopLine_pfm]
  · split <;> split <;> simp [stopLineWait, stopLine_pfm]
  · intro h
    simp only [h, if_true, stopLineWait]
    split
    · simp [stopLine_pfm]; rfl
    · simp [stopLine_pfm]
  · simp only [holds]
    split <;> split <;> simp
  · intro n
    have keep : ∀ (a : State) (x : Lst) (y : Ftc), profile ((a.withLst x).withFtc y) n = profile a n := fun _ _ _ => rfl
    rw [keep, profile_setProfile]
    (repeat' split) <;> simp_all [profile]
  · have keep : ∀ (a : State) (x : Lst) (y : Ftc), ((a.withLst x).withFtc y).pst = a.pst := fun _ _ _ => rfl
    rw [keep, session_setProfile]
    split <;> split <;> simp
  · intro p hp
    split <;> split <;> cases p <;> simp_all [samePart]

/-- A record whose data side an abort closes keeps all but its data side and its missing lines (R89, R110). -/
theorem abortedRecord_spec (r : FrameRecord) :
    (abortedRecord r).fsn = r.fsn ∧ (abortedRecord r).tag = r.tag ∧ (abortedRecord r).slot = r.slot ∧
    (abortedRecord r).exposure = r.exposure ∧ (abortedRecord r).complete = r.complete ∧
    (abortedRecord r).partialLines = r.partialLines ∧ (abortedRecord r).setup = r.setup ∧
    (abortedRecord r).missing =
      (match r.data with
       | .closed => r.missing
       | .pending => r.missing + r.dataLines
       | .opened => r.missing + (r.dataLines - r.kCur)) ∧
    dataOutcome (abortedRecord r) = (if r.data = .closed then dataOutcome r else .aborted) := by
  simp only [abortedRecord]
  cases r.data <;> simp [dataOutcome]

/-- The report of a record says what R72 and R96 list. -/
theorem reportOf_tells (r : FrameRecord) (cause : Option AbortCause) (s : State) :
    ReportTells r s (reportOf r cause s) := by
  refine ⟨rfl, rfl, rfl, rfl, rfl, rfl, rfl, rfl, rfl, ?_, fun h => ?_, fun h => ?_⟩
  · simp only [reportOf, scanLines, largest]
    split <;> simp [*]
  · simp [reportOf, h, pixelCounts]
  · simp [reportOf, h, noCounts, Slips.zero]

/-- The report of an aborted record says what R89 and R110 add. -/
theorem reportOf_aborted (r : FrameRecord) (cause : AbortCause) (s : State) :
    AbortReport cause r s (reportOf (abortedRecord r) (some cause) s) := by
  have h : ReportTells r s (reportOf (abortedRecord r) (some cause) s) := by
    have := reportOf_tells (abortedRecord r) (some cause) s
    cases hd : r.data <;> simp only [abortedRecord, hd] at this ⊢ <;> simpa [ReportTells] using this
  have hx : (abortedRecord r).exposure = r.exposure := by cases hd : r.data <;> simp [abortedRecord, hd]
  refine ⟨h, rfl, ?_, ?_, ?_, fun h => ?_⟩
  · simp [reportOf, hx]
  · cases hd : r.data <;> simp [reportOf, abortedRecord, hd]
  · cases hd : r.data <;> simp [reportOf, abortedRecord, hd, dataOutcome]
  · simp [reportOf, hx, h]

/-! ## An accepted edge and the monitor request (R147) -/

/-- A window ends 4928 pixel periods after its edge, 4928 times 256 ticks of N parts each. -/
theorem windowEnds_eq (edge : Nat) (s : State) : windowEnds edge s = edge + 4928 * 256 * s.stu.nominal := by
  simp [windowEnds, momentAfter, Config.monitorCloses, Config.ticksPerPixel]

/-- An accepted edge binds the request held, or marks it. -/
theorem requestEdge_met (now : Nat) (s : State) (q : MonitorRequest) (h : s.pfm.request = some q) :
    RequestMet now s (requestEdge now s) := by
  refine ⟨fun hn => by simp [h] at hn, fun q' hq => ?_⟩
  cases h.symm.trans hq
  refine ⟨fun hb => by simp [requestEdge, h, hb], fun edge hb => ?_⟩
  simp only [requestEdge, h, hb, windowEnds_eq]
  split <;> simp [*]

/-- On a polygon that is not LOCKED no line is written: a record with lines left, on a REGISTERED transport, counts a SYNC
slip (R131). -/
theorem decideLine_unlocked (t : Nat) {r : FrameRecord} {rest : List FrameRecord} {u : LatchedSetup} {s : State}
    (hp : s.stu.polygon ≠ .locked) (h : s.fq.records = r :: rest) (he : r.exposure = .exposing)
    (hu : r.setup = some u) :
    decideLine t s =
      if s.stu.scanCounter < r.height + largest u.vertical ∧ s.ftc.state = .registered then
        s.withStu { s.stu with slips := countSlip s.stu.slips .sync }
      else s := by
  have ex : exposing s = some r := by simp [exposing, oldest, h, he]
  have sl : scanLines r s = r.height + largest u.vertical := by simp [scanLines, hu]
  simp only [decideLine, ex, lineStart, sl]
  by_cases h1 : s.stu.scanCounter < r.height + largest u.vertical
  · by_cases h2 : s.ftc.state = .registered
    · simp [h1, h2, hp, Nat.not_le.mpr h1]
    · simp [h1, h2, Nat.not_le.mpr h1]
  · simp [h1, Nat.not_lt.mp h1]

/-- An accepted edge before the window's end closes the pulses that nothing withheld, and no other. -/
theorem requestEdge_cut (now : Nat) (s : State) : PulsesCut now s (requestEdge now s) := by
  intro c
  simp only [requestEdge]
  split
  · next h => simp [h]
  · next q h =>
    split
    · next hb => simp [h, hb]
    · next e hb =>
      rw [windowEnds_eq]
      split
      · next ht =>
        constructor
        · rintro ⟨q', e', h', hb', -, ho, h1, h2, h3, hc⟩
          cases h.symm.trans h'
          cases hb.symm.trans hb'
          have hc' : ((q.shots.get c).isSome = true) := by simpa [Option.isSome_iff_ne_none] using hc
          simp [undisturbed, withheld, ho, h1, h2, h3, endPulses, hc', restoreAmplitude, closePulse, rungCode]
        · intro hn
          simp only [State.withPfm_pfm]
          split
          · next hu =>
            have : q.shots.get c = none := by
              by_contra hc
              refine hn ⟨q, e, h, hb, ht, ?_⟩
              simp only [Bool.and_eq_true, undisturbed, withheld] at hu
              obtain ⟨ho, hu⟩ := hu
              revert hu
              cases q.sawBlank <;> cases q.sawLine <;> cases q.sawEdge <;> simp [ho, hc]
            simp [endPulses, this]
          · rfl
      · next ht =>
        refine ⟨?_, fun _ => rfl⟩
        rintro ⟨q', e', h', hb', ht', -⟩
        cases h.symm.trans h'
        cases hb.symm.trans hb'
        exact absurd ht' ht

/-! ## The end of a step (R26, R27, R152) -/

theorem told_conclude {s t : State} (h : t.cpr = s.cpr) (k : t.rtx = s.rtx) : Told s (conclude t) := by
  have a := (conclude_spec t).1
  simp only [Told, Noticed, CprNoticed, h, k] at a ⊢
  exact a

theorem monitorAsked_conclude {s t : State} (h : t.pfm = s.pfm) : MonitorAsked s (conclude t) := by
  have a := (conclude_spec t).2.1
  simp only [MonitorAsked, h] at a ⊢
  exact a

theorem sameBut_conclude {l : List Part} {s t : State} (h : SameBut l s t) (h1 : .cpr ∈ l) (h2 : .rtx ∈ l)
    (h3 : .pfm ∈ l) : SameBut l s (conclude t) := by
  refine h.trans ((conclude_spec t).2.2.mono fun p hp => ?_)
  simp only [List.mem_cons, List.not_mem_nil, or_false] at hp
  rcases hp with rfl | rfl | rfl <;> assumption

theorem conclude_current (s : State) : (conclude s).cpr.current = ownerValues (composeRequest s) := by
  simp [conclude, observe]

/-! ## A REPLY is written into its own entry: it commutes with what the owner does to its own part -/

section

variable (tag code : Nat) (a : Answer) (s : State)

@[simp] theorem endWithReply_withFree (x : Nat) :
    endWithReply tag code a (s.withFree x) = (endWithReply tag code a s).withFree x := rfl
@[simp] theorem endWithReply_withPst (x : Pst) :
    endWithReply tag code a (s.withPst x) = (endWithReply tag code a s).withPst x := rfl
@[simp] theorem endWithReply_withFq (x : Fq) :
    endWithReply tag code a (s.withFq x) = (endWithReply tag code a s).withFq x := rfl
@[simp] theorem endWithReply_withLst (x : Lst) :
    endWithReply tag code a (s.withLst x) = (endWithReply tag code a s).withLst x := rfl
@[simp] theorem endWithReply_withLanes (x : PerColour Lane) :
    endWithReply tag code a (s.withLanes x) = (endWithReply tag code a s).withLanes x := rfl
@[simp] theorem endWithReply_withStu (x : Stu) :
    endWithReply tag code a (s.withStu x) = (endWithReply tag code a s).withStu x := rfl
@[simp] theorem endWithReply_withPfm (x : Pfm) :
    endWithReply tag code a (s.withPfm x) = (endWithReply tag code a s).withPfm x := rfl
@[simp] theorem endWithReply_withLmn (x : Lmn) :
    endWithReply tag code a (s.withLmn x) = (endWithReply tag code a s).withLmn x := rfl
@[simp] theorem endWithReply_withBlc (x : Blc) :
    endWithReply tag code a (s.withBlc x) = (endWithReply tag code a s).withBlc x := rfl
@[simp] theorem endWithReply_withSen (x : Sensors) :
    endWithReply tag code a (s.withSen x) = (endWithReply tag code a s).withSen x := rfl
@[simp] theorem endWithReply_withFtc (x : Ftc) :
    endWithReply tag code a (s.withFtc x) = (endWithReply tag code a s).withFtc x := rfl

/-- A REPLY stands in its own part alone. -/
@[simp] theorem answeredWith_frame :
    (answeredWith tag code a s).pending = s.pending ∧ (answeredWith tag code a s).clock = s.clock ∧
    (answeredWith tag code a s).free = s.free ∧ (answeredWith tag code a s).lrx = s.lrx ∧
    (answeredWith tag code a s).pst = s.pst ∧ (answeredWith tag code a s).fq = s.fq ∧
    (answeredWith tag code a s).lst = s.lst ∧ (answeredWith tag code a s).lanes = s.lanes ∧
    (answeredWith tag code a s).stu = s.stu ∧ (answeredWith tag code a s).pfm = s.pfm ∧
    (answeredWith tag code a s).lmn = s.lmn ∧ (answeredWith tag code a s).blc = s.blc ∧
    (answeredWith tag code a s).ftc = s.ftc ∧ (answeredWith tag code a s).sen = s.sen := by
  simp [answeredWith]

end

/-- A report that a command's owner offers stands behind that command's REPLY. -/
theorem endWithReply_offerReport (tag code : Nat) (a : Answer) (rep : Report) (s : State) :
    endWithReply tag code a (offerReport rep s) = offerReport rep (endWithReply tag code a s) := by
  have e : entryFree (endWithReply tag code a s) = entryFree s := by
    rw [Bool.eq_iff_iff, entryFree_iff, entryFree_iff]
    simp [endWithReply]
  have w : reportWaiting (endWithReply tag code a s) = reportWaiting s := rfl
  simp only [offerReport, e, w]
  split
  · simp only [enqueue, endWithReply, State.withRtx, State.withCpr, fillReserved_concat]
  · rfl

/-- A command that is ready may be executed. -/
theorem CommandReady.mayExecute {tag code : Nat} {args : List Byte} {s : State} (h : CommandReady tag code args s) :
    mayExecute s = true := by
  obtain ⟨hf, he, hl, -⟩ := h
  refine (mayExecute_iff s).2 ⟨?_, he, hl⟩
  intro h0
  simp [headCommand, h0] at hf

end Sys2Proof.Machine
end

