-- ==== Sys2Proof/Laws/Blanking.lean ====
section
/-! SUPPORT. What an abort, a trigger of the blanking and a transport fault do, each said once in the words of
Safety.lean (R89, R90, R173, R185). -/

namespace Sys2Proof.Machine

open Sys2Proof

/-! ## What a state keeps of the reports queued before it -/

/-- A later state: no record has come back, a HELD queue is held, a stopped line wait is stopped, and the entries that
are not NOTICEs and the backlog stand as they did, older than any new ones. -/
def Later (t u : State) : Prop :=
  (∀ n, (∀ q ∈ t.fq.records, q.fsn ≠ n) → ∀ q ∈ u.fq.records, q.fsn ≠ n) ∧
  (t.fq.held = true → u.fq.held = true) ∧ (t.stu.lineWait = none → u.stu.lineWait = none) ∧
  (∀ (i : Nat) (e : OutEntry), t.rtx.entries[i]? = some e → isNotice e = false → u.rtx.entries[i]? = some e) ∧
  (∃ more, u.fq.backlog = t.fq.backlog ++ more)

theorem Later.refl (t : State) : Later t t := ⟨fun _ h => h, id, id, fun _ _ h _ => h, [], by simp⟩

theorem Later.trans {s t u : State} (h : Later s t) (k : Later t u) : Later s u := by
  obtain ⟨h1, h2, h3, h4, m, h5⟩ := h
  obtain ⟨k1, k2, k3, k4, n, k5⟩ := k
  exact ⟨fun x hx => k1 x (h1 x hx), fun x => k2 (h2 x), fun x => k3 (h3 x),
    fun i e he hn => k4 i e (h4 i e he hn) hn, m ++ n, by simp [k5, h5]⟩

theorem AbortedWith.later {cause : AbortCause} {r : FrameRecord} {s t u : State} (h : AbortedWith cause r s t)
    (k : Later t u) : AbortedWith cause r s u := by
  obtain ⟨gone, held, rep, h1, h2, h3, h4, h5⟩ := h
  obtain ⟨k1, k2, k3, k4, more, k5⟩ := k
  refine ⟨k1 _ gone, k2 held, rep, h1, h2, h3, fun hx => ?_, ?_⟩
  · obtain ⟨a, b, c⟩ := h4 hx
    exact ⟨a, b, k3 c⟩
  · rcases h5 with h5 | h5
    · left
      obtain ⟨i, hi⟩ := List.mem_iff_getElem?.1 h5
      rw [List.getElem?_drop] at hi
      refine List.mem_iff_getElem?.2 ⟨i, ?_⟩
      rw [List.getElem?_drop]
      exact k4 _ _ hi rfl
    · right
      rw [k5]
      obtain ⟨i, hi⟩ := List.mem_iff_getElem?.1 h5
      rw [List.getElem?_drop] at hi
      refine List.mem_iff_getElem?.2 ⟨i, ?_⟩
      rw [List.getElem?_drop]
      rw [List.getElem?_append_left (List.getElem?_eq_some_iff.1 hi).1]
      exact hi

/-- The same parts, seen from a state that agrees on what an abort reads. -/
theorem AbortedWith.of_eq {cause : AbortCause} {r : FrameRecord} {s s' t : State} (h : AbortedWith cause r s' t)
    (hs : r.exposure = .exposing → s'.stu.writing = s.stu.writing ∧ s'.stu.scanCounter = s.stu.scanCounter)
    (he : s'.rtx.entries = s.rtx.entries) (hb : s'.fq.backlog = s.fq.backlog) : AbortedWith cause r s t := by
  obtain ⟨gone, held, rep, h1, h2, h3, h4, h5⟩ := h
  refine ⟨gone, held, rep, h1, h2, h3, fun hx => ?_, by rw [← he, ← hb]; exact h5⟩
  rw [← (hs hx).1, ← (hs hx).2]
  exact h4 hx

/-! ## Aborts -/

theorem later_offerReport (rep : Report) (s : State) : Later s (offerReport rep s) := by
  by_cases h : s.rtx.entries.length < 32 ∧ reportWaiting s = false
  · rw [(offerReport_spec rep s).1 h.1 h.2]
    refine ⟨fun _ h => h, id, id, fun i e he _ => ?_, [], by simp⟩
    simp only [State.withRtx_rtx]
    rw [List.getElem?_append_left (List.getElem?_eq_some_iff.1 he).1]
    exact he
  · rw [(offerReport_spec rep s).2 (by by_cases h' : s.rtx.entries.length < 32 <;> simp_all)]
    exact ⟨fun _ h => h, id, id, fun _ _ h _ => h, [rep], by simp⟩

/-- A report that is offered stands behind the entries, or behind the backlog. -/
theorem offerReport_queued (rep : Report) (s : State) :
    .block (.report rep) ∈ (offerReport rep s).rtx.entries.drop s.rtx.entries.length ∨
    rep ∈ (offerReport rep s).fq.backlog.drop s.fq.backlog.length := by
  by_cases h : s.rtx.entries.length < 32 ∧ reportWaiting s = false
  · rw [(offerReport_spec rep s).1 h.1 h.2]
    simp
  · rw [(offerReport_spec rep s).2 (by by_cases h' : s.rtx.entries.length < 32 <;> simp_all)]
    simp

/-- A POSITIONING or EXPOSING record that is aborted leaves a HELD queue and its report (R89). -/
theorem aborted_abortRecord {r : FrameRecord} (cause : AbortCause) (s : State)
    (h : r.exposure = .positioning ∨ r.exposure = .exposing) : AbortedWith cause r s (abortRecord r cause s) := by
  have spec := takenOut_spec r s
  have hr := abortedRecord_spec r
  rw [abortRecord_eq]
  simp only [h, if_true]
  generalize ht : takenOut r s = t at spec
  obtain ⟨hfq, -, hstu, -, -, -, -, -, -, -, same⟩ := spec
  have hrtx : t.rtx = s.rtx := same .rtx (by simp)
  have hq := offerReport_queued (reportOf (abortedRecord r) (some cause) s) t
  rw [hrtx, hfq] at hq
  refine ⟨?_, by simp, reportOf (abortedRecord r) (some cause) s, by simp [reportOf, hr], by simp [reportOf],
    by simp [reportOf, hr], fun hx => ⟨by simp [reportOf, hr, hx], by simp [reportOf, hr, hx], ?_⟩, by simpa using hq⟩
  · have l := (later_offerReport (reportOf (abortedRecord r) (some cause) s) t).1 r.fsn
      (by simp [hfq])
    simpa using l
  · simp [hstu, hx]

theorem later_abortRecord (r : FrameRecord) (cause : AbortCause) (s : State) : Later s (abortRecord r cause s) := by
  have spec := takenOut_spec r s
  rw [abortRecord_eq]
  generalize ht : takenOut r s = t at spec
  obtain ⟨hfq, -, hstu, -, -, -, -, -, -, -, same⟩ := spec
  have hrtx : t.rtx = s.rtx := same .rtx (by simp)
  have l := later_offerReport (reportOf (abortedRecord r) (some cause) s) t
  have first : Later s t := by
    refine ⟨fun n hn q hq => hn q ?_, by simp [hfq], fun hl => ?_, fun i e he _ => by rw [hrtx]; exact he,
      [], by simp [hfq]⟩
    · rw [hfq] at hq
      exact (List.mem_filter.1 hq).1
    · rw [hstu]
      split <;> simp [hl]
  refine (first.trans l).trans ?_
  split
  · exact ⟨fun _ h => h, fun _ => rfl, id, fun _ _ h _ => h, [], by simp⟩
  · exact Later.refl _

theorem later_abortExposing (cause : AbortCause) (s : State) : Later s (abortExposing cause s) := by
  simp only [abortExposing]
  split
  · exact later_abortRecord _ _ _
  · exact Later.refl _

theorem later_abortMoving (cause : AbortCause) (s : State) : Later s (abortMoving cause s) := by
  simp only [abortMoving]
  split
  · split
    · exact later_abortRecord _ _ _
    · exact Later.refl _
  · exact Later.refl _

/-! ## The blanking (R185, R186) -/

/-- A later state of equal queues, records and line wait. -/
theorem Later.of_eq {t u : State} (hf : u.fq = t.fq) (hr : u.rtx = t.rtx) (hl : t.stu.lineWait = none → u.stu.lineWait = none) :
    Later t u :=
  ⟨fun _ h => by rw [hf]; exact h, fun h => by rw [hf]; exact h, hl, fun _ _ h _ => by rw [hr]; exact h, [],
    by simp [hf]⟩

theorem loopRuns_latched {s : State} (h : s.blc.latch = true) (c : Colour) : loopRuns s c = false := by
  simp [loopRuns, loopsAllowed, h]

theorem emptyStopped_latched {s : State} (h : s.blc.latch = true) (c : Colour) :
    (emptyStopped s).lmn.channels.get c = { s.lmn.channels.get c with accCount := 0, accSum := 0 } := by
  simp [emptyStopped, loopRuns_latched h, emptyAccumulator]

/-- A request that was held is still held, open or not as it was, with its colours, and keeps the mark of the latch. -/
def RequestKept (t u : State) : Prop :=
  ∀ q : MonitorRequest, t.pfm.request = some q → ∃ q' : MonitorRequest, u.pfm.request = some q' ∧
    q'.opened = q.opened ∧ (∀ c : Colour, (q'.shots.get c).isSome = (q.shots.get c).isSome) ∧
    (q.sawBlank = true → q'.sawBlank = true)

theorem RequestKept.of_eq {t u : State} (h : u.pfm.request = t.pfm.request) : RequestKept t u :=
  fun q hq => ⟨q, h.trans hq, rfl, fun _ => rfl, id⟩

theorem RequestKept.trans {s t u : State} (h : RequestKept s t) (k : RequestKept t u) : RequestKept s u := by
  intro q hq
  obtain ⟨q1, h1, h2, h3, h4⟩ := h q hq
  obtain ⟨q2, k1, k2, k3, k4⟩ := k q1 h1
  exact ⟨q2, k1, k2.trans h2, fun c => (k3 c).trans (h3 c), fun hb => k4 (h4 hb)⟩

/-- A request that has met the latch is not fired, whatever else it has met (R147). -/
theorem windowResult_blanked {q : MonitorRequest} (h : q.sawBlank = true) (average : PerColour Int) :
    windowResult q average = .notFired .blanked := by simp [windowResult, withheld, h]

theorem RequestDarkened.later {s t u : State} (h : RequestDarkened s t) (k : RequestKept t u)
    (hb : u.blc.latch = true) : RequestDarkened s u := by
  intro q hq
  obtain ⟨q1, h1, h2, h3, h4, -⟩ := h q hq
  obtain ⟨q2, k1, k2, k3, k4⟩ := k q1 h1
  exact ⟨q2, k1, k2.trans h2, fun c => (k3 c).trans (h3 c), fun ho => k4 (h4 ho), by simpa [openedRequest] using hb,
    fun average hs => windowResult_blanked hs average⟩

theorem RequestDarkened.before {s s' t : State} (h : RequestDarkened s' t) (k : RequestKept s s') :
    RequestDarkened s t := by
  intro q hq
  obtain ⟨q1, k1, k2, k3, -⟩ := k q hq
  obtain ⟨q2, h1, h2, h3, h4, h5⟩ := h q1 k1
  exact ⟨q2, h1, h2.trans k2, fun c => (h3 c).trans (k3 c), fun ho => h4 (by rw [k2]; exact ho), h5⟩

/-- An abandoned measurement leaves a held request to be served (R152, R165). -/
theorem abandonMeasurement_request (s : State) : RequestKept s (abandonMeasurement s) := by
  simp only [abandonMeasurement]
  split
  · intro q hq
    simp only [endMeasurement, State.withLmn_pfm, endUse, State.withPfm_pfm, setProfile_frame, hq, Option.map_some]
    exact ⟨_, rfl, rfl, fun c => by simp, id⟩
  · exact .of_eq rfl

/-- What ends a step leaves a held request as it is. -/
theorem conclude_request (s : State) : RequestKept s (conclude s) := by
  intro q hq
  refine ⟨q, ?_, rfl, fun _ => rfl, id⟩
  have := (conclude_spec s).2.1.2.1 (by simp [hq])
  rw [this, hq]

/-- What the abandonment of a measurement leaves (R165). -/
theorem abandonMeasurement_spec (s : State) :
    let t := abandonMeasurement s
    t.lmn.measurement = none ∧ t.lmn.channels = s.lmn.channels ∧ t.lmn.retraceCount = s.lmn.retraceCount ∧
    (s.lmn.measurement = none → t = s) ∧
    ∀ m, s.lmn.measurement = some m → t.lmn.value = .result .abandoned m.slot ∧
      ∀ p, (profile s m.slot).prior = some p →
        (profile t m.slot).state = (match p with | .valid => .valid | .incomplete => .incomplete) ∧
        (profile t m.slot).prior = none := by
  simp only [abandonMeasurement]
  split
  · next m hm =>
    refine ⟨by simp [endMeasurement], by simp [endMeasurement], by simp [endMeasurement], by simp [hm], ?_⟩
    rintro m' hm'
    rw [hm] at hm'
    cases hm'
    refine ⟨by simp [endMeasurement], fun p hp => ?_⟩
    have : profile (endMeasurement m .abandoned s) m.slot = restorePrior (profile s m.slot) := by
      have e : ∀ (a : State) (x : Lmn), profile (a.withLmn x) m.slot = profile a m.slot := fun _ _ => rfl
      simp only [endMeasurement, e]
      rw [show ∀ a : State, profile (endUse (fun _ => true) (fun u => u == .measure) a) m.slot = profile a m.slot from
        fun _ => rfl, profile_setProfile]
      simp
    rw [this]
    cases p <;> simp [restorePrior, hp]
  · next hm => simp [hm]

/-- The outputs as they go dark (R148). -/
theorem darkenOutputs_spec (s : State) :
    OutputsDark (darkenOutputs s) ∧ (darkenOutputs s).pfm.line = none ∧ (darkenOutputs s).stu.writing = none ∧
    ((darkenOutputs s).stu.lineWait = s.stu.lineWait) := by
  refine ⟨fun c => ?_, by simp [darkenOutputs, stopLine_pfm], by simp [darkenOutputs, stopLine_stu],
    by simp [darkenOutputs, stopLine_stu]⟩
  simp [darkenOutputs, darken, closePulse]

/-- An abort leaves a held request as it is (R147). -/
@[simp] theorem abortRecord_request (r : FrameRecord) (cause : AbortCause) (s : State) :
    (abortRecord r cause s).pfm.request = s.pfm.request := by
  rw [abortRecord_eq, ← (takenOut_spec r s).2.2.2.2.2.1]
  simp only
  split <;> simp

@[simp] theorem abortExposing_request (cause : AbortCause) (s : State) :
    (abortExposing cause s).pfm.request = s.pfm.request := by
  simp only [abortExposing]
  split <;> simp

/-- As the outputs go dark, a request whose window is open meets the latch (R147). -/
theorem darkenOutputs_request (s : State) {q : MonitorRequest} (hq : s.pfm.request = some q) :
    (darkenOutputs s).pfm.request = some (if q.opened then { q with sawBlank := true } else q) := by
  simp [darkenOutputs, stopLine_pfm, hq]

/-- A clear latch that a source sets: the blanking is carried out, and nothing queued before is lost (R185). -/
theorem setBlank_spec (src : TriggerSource) (s : State) :
    let cause := if src = .transport then AbortCause.transport else .blanked
    Later s (setBlank src s) ∧ (s.blc.latch = false → Blanked (causeOf src) cause s (setBlank src s)) := by
  generalize hc : (if src = .transport then AbortCause.transport else .blanked) = cause
  generalize ha : s.withBlc { s.blc with latch := true, causes := causeOf src } = a
  have hblc : a.blc = { s.blc with latch := true, causes := causeOf src } := by rw [← ha]; rfl
  have hlmn : a.lmn = s.lmn := by rw [← ha]; rfl
  have hpst : a.pst = s.pst := by rw [← ha]; rfl
  have hfq : a.fq = s.fq := by rw [← ha]; rfl
  have hrtx : a.rtx = s.rtx := by rw [← ha]; rfl
  have hstu : a.stu = s.stu := by rw [← ha]; rfl
  have eq : setBlank src s = emptyStopped (abandonMeasurement (darkenOutputs (abortExposing cause a))) := by
    simp only [setBlank, ha, hc]
  have first : Later s a := Later.of_eq hfq hrtx (by rw [hstu]; exact id)
  have second := later_abortExposing cause a
  generalize hb : abortExposing cause a = b at second eq
  have bl : b.lmn = a.lmn ∧ b.blc = a.blc := by rw [← hb]; simp
  have bp : ∀ n, (profile b n).prior = (profile a n).prior := by
    intro n
    rw [← hb]
    simp only [abortExposing]
    split
    · next r _ =>
      have spec := (takenOut_spec r a).2.2.2.2.2.2.2.2.1 n
      have : profile (abortRecord r cause a) n = profile (takenOut r a) n := by
        rw [abortRecord_eq]
        simp only
        split <;> simp [profile]
      rw [this, spec]
      split
      · next h => rw [h]
      · rfl
    · rfl
  generalize hd : darkenOutputs b = d at eq
  have ds := darkenOutputs_spec b
  rw [hd] at ds
  have dk : d.fq = b.fq ∧ d.rtx = b.rtx ∧ d.lmn = b.lmn ∧ d.pst = b.pst ∧ d.blc = b.blc := by rw [← hd]; simp
  obtain ⟨dfq, drtx, dlmn, dpst, dblc⟩ := dk
  have third : Later b d := Later.of_eq dfq drtx (by rw [ds.2.2.2]; exact id)
  have ms := abandonMeasurement_spec d
  generalize hm : abandonMeasurement d = e at ms eq
  have ek : e.fq = d.fq ∧ e.rtx = d.rtx ∧ e.stu = d.stu ∧ e.blc = d.blc ∧ e.pfm.line = d.pfm.line ∧
      e.pfm.lanes = d.pfm.lanes := by
    rw [← hm]
    simp only [abandonMeasurement]
    split <;> simp [endMeasurement, endUse]
  obtain ⟨efq, ertx, estu, eblc, eline, elanes⟩ := ek
  have latched : e.blc.latch = true := by rw [eblc, dblc, bl.2, hblc]
  have fourth : Later d e := Later.of_eq efq ertx (by rw [estu]; exact id)
  have fifth : Later e (emptyStopped e) := Later.of_eq rfl rfl id
  have late := (third.trans fourth).trans fifth
  rw [eq]
  refine ⟨(first.trans second).trans late, fun hl => ⟨?_, fun _ => ?_⟩⟩
  · rw [show (emptyStopped e).blc = e.blc from rfl, eblc, dblc, bl.2, hblc, hl]
    rfl
  · refine ⟨fun c => ?_, ?_, ?_, ms.1, fun c => ?_, fun m hmm => ?_, ?_, fun r hr hx => ?_⟩
    · rw [show (emptyStopped e).pfm = e.pfm from rfl, elanes]
      exact ds.1 c
    · rw [show (emptyStopped e).pfm = e.pfm from rfl, eline, ds.2.1]
    · rw [show (emptyStopped e).stu = e.stu from rfl, estu, ds.2.2.1]
    · rw [emptyStopped_latched latched]
      exact ⟨rfl, rfl⟩
    · have := ms.2.2.2.2 m (by rw [dlmn, bl.1, hlmn, hmm])
      refine ⟨this.1, fun p hp => ?_⟩
      have prior : (profile d m.slot).prior = some p := by
        rw [show profile d m.slot = profile b m.slot by simp [profile, dpst], bp, ← hp]
        simp [profile, hpst]
      exact (this.2 p prior).1
    · intro q hq
      have hbq : b.pfm.request = some q := by rw [← hb, abortExposing_request, ← ha]; exact hq
      have hdq := darkenOutputs_request b hbq
      rw [hd] at hdq
      obtain ⟨q', h1, h2, h3, h4⟩ := abandonMeasurement_request d _ hdq
      rw [hm] at h1
      refine ⟨q', h1, ?_, fun c => ?_, fun ho => h4 (by simp [ho]), by simpa [openedRequest, emptyStopped] using latched,
        fun average hs => windowResult_blanked hs average⟩
      · rw [h2]
        split <;> rfl
      · rw [h3]
        split <;> rfl
    · have ex : exposing a = some r := by
        cases hrec : s.fq.records with
        | nil => simp [hrec] at hr
        | cons q rest =>
          simp only [hrec, List.head?_cons, Option.some.injEq] at hr
          exact exposing_cons (by rw [hfq, hrec, hr]) hx
      have ab := aborted_abortRecord cause a (Or.inr hx)
      rw [show abortRecord r cause a = b by rw [← hb]; simp [abortExposing, ex]] at ab
      exact (ab.later late).of_eq (fun _ => by rw [hstu]; exact ⟨rfl, rfl⟩) (by rw [hrtx]) (by rw [hfq])

/-- A trigger that reaches the Blanking Control (R184 to R186). -/
theorem trigger_spec (src : TriggerSource) (s : State) :
    Later s (trigger src s) ∧ (sourceEnabled s.blc src = false → trigger src s = s) ∧
    (sourceEnabled s.blc src = true →
      Blanked (causeOf src) (if src = .transport then .transport else .blanked) s (trigger src s)) := by
  cases he : sourceEnabled s.blc src
  · simp [trigger, he, Later.refl]
  · cases hl : s.blc.latch
    · have := setBlank_spec src s
      simp only [trigger, he, hl, if_true, Bool.false_eq_true, if_false]
      exact ⟨this.1, by simp, fun _ => this.2 hl⟩
    · simp only [trigger, he, hl, if_true]
      refine ⟨Later.of_eq rfl rfl id, by simp, fun _ => ⟨?_, by simp [hl]⟩⟩
      simp [hl]

/-- What a blanking reads of the state before it. -/
theorem Blanked.of_eq {source : CauseSet} {cause : AbortCause} {s s' t : State} (h : Blanked source cause s' t)
    (hb : s'.blc = s.blc) (hm : s'.lmn.measurement = s.lmn.measurement)
    (hp : ∀ n, (profile s' n).prior = (profile s n).prior) (hf : s'.fq = s.fq) (hr : s'.rtx = s.rtx)
    (hw : s'.stu.writing = s.stu.writing) (hc : s'.stu.scanCounter = s.stu.scanCounter) (hq : RequestKept s s') :
    Blanked source cause s t := by
  obtain ⟨h1, h2⟩ := h
  refine ⟨by rw [← hb]; exact h1, fun hl => ?_⟩
  obtain ⟨a1, a2, a3, a4, a5, a6, a8, a7⟩ := h2 (by rw [hb]; exact hl)
  refine ⟨a1, a2, a3, a4, a5, fun m hm' => ?_, a8.before hq, fun r hr' hx => ?_⟩
  · have := a6 m (by rw [hm]; exact hm')
    exact ⟨this.1, fun p hp' => this.2 p (by rw [hp]; exact hp')⟩
  · exact (a7 r (by rw [hf]; exact hr') hx).of_eq (fun _ => ⟨hw, hc⟩) (by rw [hr]) (by rw [hf])

/-- What follows a blanking keeps it, where it keeps what the blanking has left. -/
theorem Blanked.later {source : CauseSet} {cause : AbortCause} {s t u : State} (h : Blanked source cause s t)
    (k : Later t u) (hb : u.blc = t.blc) (hp : u.pfm.lanes = t.pfm.lanes) (hn : u.pfm.line = t.pfm.line)
    (hw : u.stu.writing = t.stu.writing) (hl : u.lmn = t.lmn)
    (hs : ∀ n, (profile u n).state = (profile t n).state) (hq : RequestKept t u) : Blanked source cause s u := by
  obtain ⟨h1, h2⟩ := h
  refine ⟨hb.trans h1, fun hc => ?_⟩
  obtain ⟨a1, a2, a3, a4, a5, a6, a8, a7⟩ := h2 hc
  refine ⟨by simpa only [OutputsDark, hp] using a1, hn.trans a2, hw.trans a3, by rw [hl]; exact a4,
    by rw [hl]; exact a5, fun m hm => ?_, a8.later hq (by rw [hb, h1]), fun r hr hx => (a7 r hr hx).later k⟩
  have := a6 m hm
  exact ⟨by rw [hl]; exact this.1, fun p hp' => by rw [hs]; exact this.2 p hp'⟩

/-- What ends a step loses nothing that was queued. -/
theorem later_conclude (s : State) : Later s (conclude s) := by
  have h := (conclude_spec s).1.1
  refine ⟨fun _ h => by simpa using h, by simp, by simp, h.2.2.2.2, [], by simp⟩

theorem Blanked.conclude {source : CauseSet} {cause : AbortCause} {s t : State} (h : Blanked source cause s t) :
    Blanked source cause s (conclude t) := by
  have a := (conclude_spec t).2.1.1
  exact h.later (later_conclude t) (by simp) (by rw [a]) (by rw [a]) (by simp) (by simp)
    (fun n => by simp [profile]) (conclude_request t)

/-- A blanking stands when the oldest record is then aborted (R90, R173). -/
theorem Blanked.abortMoving {source : CauseSet} {cause c : AbortCause} {s t : State} (h : Blanked source cause s t) :
    Blanked source cause s (abortMoving c t) := by
  have k := later_abortMoving c t
  simp only [Machine.abortMoving] at k ⊢
  split
  · next r hr =>
    split
    · next hr' =>
      rw [hr] at k
      simp only [hr', if_true] at k
      have full := h
      obtain ⟨h1, h2⟩ := h
      refine ⟨by simpa using h1, fun hc => ?_⟩
      have spec := takenOut_spec r t
      generalize ht : takenOut r t = w at spec
      obtain ⟨-, -, wstu, wpfm, wline, -, wlanes, -, wprof, -, same⟩ := spec
      have wl : w.lmn = t.lmn := same .lmn (by simp)
      have e : ∀ n, profile (abortRecord r c t) n = profile w n := by
        intro n
        rw [abortRecord_eq]
        simp only [ht]
        split <;> simp [profile]
      have b : (abortRecord r c t).pfm = w.pfm ∧ (abortRecord r c t).stu = w.stu ∧ (abortRecord r c t).lmn = w.lmn := by
        rw [abortRecord_eq]
        simp only [ht]
        split <;> simp
      have no := (h2 hc).2.1
      have off := (h2 hc).2.2.1
      have same : w.pfm.lanes = t.pfm.lanes ∧ w.pfm.line = t.pfm.line ∧ w.stu.writing = t.stu.writing := by
        by_cases hx : r.exposure = .exposing
        · exact ⟨by rw [wlanes hx]; simp [no], by rw [wline hx, no], by rw [wstu]; simp [hx, off]⟩
        · exact ⟨by rw [wpfm hx], by rw [wpfm hx], by rw [wstu]; simp [hx]⟩
      refine ((full.later k (by simp) (by rw [b.1, same.1]) (by rw [b.1, same.2.1]) (by rw [b.2.1, same.2.2])
        (by rw [b.2.2, wl]) (fun n => ?_) (.of_eq (by simp)))).2 hc
      rw [e, wprof]
      split
      · next hn => rw [hn]
      · rfl
    · exact h
  · exact h

/-- The transport goes to FAULT, and the fault is signalled (R173). -/
theorem enterFault_spec (cause : FaultCause) (s : State) (h : s.ftc.state ≠ .fault) :
    FaultSignalled s (conclude (enterFault cause s)) := by
  generalize ha : s.withFtc (faulted cause s.ftc) = a
  have hk : a.blc = s.blc ∧ a.lmn = s.lmn ∧ a.pst = s.pst ∧ a.fq = s.fq ∧ a.rtx = s.rtx ∧ a.stu = s.stu := by
    rw [← ha]; simp
  obtain ⟨hblc, hlmn, hpst, hfq, hrtx, hstu⟩ := hk
  have eq : enterFault cause s = abortMoving .transport (trigger .transport a) := by
    simp only [enterFault, h, if_false, ha]
  have tr := trigger_spec .transport a
  have en : sourceEnabled a.blc .transport = s.blc.mask.getLsbD 3 := by simp [sourceEnabled, hblc, sourceBit]
  rw [en] at tr
  simp only [if_true] at tr
  rw [eq]
  have heads : ∀ r, s.fq.records.head? = some r → r.exposure ≠ .exposing →
      (trigger .transport a).fq = s.fq ∧ oldest (trigger .transport a) = some r := by
    intro r hr hx
    have no : exposing (a.withBlc { a.blc with latch := true, causes := causeOf .transport }) = none := by
      simp only [exposing, oldest, State.withBlc_fq, hfq, hr, hx, if_false]
    have : (trigger .transport a).fq = s.fq := by
      simp only [trigger]
      split
      · split
        · simp [hfq]
        · simp [setBlank, abortExposing, no, hfq]
      · exact hfq
    exact ⟨this, by rw [oldest, this, hr]⟩
  refine ⟨fun hm => ?_, fun hm => ?_, fun r hr => ⟨fun hx => ?_, fun hx => ?_⟩, fun hn => ?_, (conclude_spec _).1.2⟩
  · have b := (tr.2.2 hm).abortMoving (c := .transport)
    exact b.conclude.of_eq hblc (by rw [hlmn]) (fun n => by simp [profile, hpst]) hfq hrtx (by rw [hstu]) (by rw [hstu])
      (.of_eq (by rw [← ha]; rfl))
  · rw [tr.2.1 hm]
    simp [hblc]
  · by_cases hl : s.blc.mask.getLsbD 3 = true ∧ s.blc.latch = false ∧ r.exposure = .exposing
    · have b := ((tr.2.2 hl.1).2 (by rw [hblc]; exact hl.2.1)).2.2.2.2.2.2.2 r (by rw [hfq]; exact hr) hl.2.2
      exact ((b.later (later_abortMoving _ _)).later (later_conclude _)).of_eq (fun _ => by rw [hstu]; exact ⟨rfl, rfl⟩)
        (by rw [hrtx]) (by rw [hfq])
    · have keep : (trigger .transport a).fq = s.fq ∧ (trigger .transport a).rtx = s.rtx ∧
          (r.exposure = .exposing → (trigger .transport a).stu.writing = s.stu.writing ∧
            (trigger .transport a).stu.scanCounter = s.stu.scanCounter) := by
        simp only [trigger, hblc]
        split
        · next hm =>
          split
          · simp [hfq, hrtx, hstu]
          · next hb =>
            have hne : r.exposure ≠ .exposing := fun h' => hl ⟨hm, by simpa using hb, h'⟩
            have no : exposing (a.withBlc { s.blc with latch := true, causes := causeOf .transport }) = none := by
              simp only [exposing, oldest, State.withBlc_fq, hfq, hr, hne, if_false]
            refine ⟨?_, ?_, fun h' => absurd h' hne⟩
            · simp [setBlank, abortExposing, hblc, no, hfq]
            · simp [setBlank, abortExposing, hblc, no, hrtx, emptyStopped]
        · exact ⟨hfq, hrtx, fun _ => by rw [hstu]; exact ⟨rfl, rfl⟩⟩
      have old : oldest (trigger .transport a) = some r := by rw [oldest, keep.1, hr]
      have ab := aborted_abortRecord .transport (trigger .transport a) hx
      rw [show abortRecord r .transport (trigger .transport a) = abortMoving .transport (trigger .transport a) by
        simp [abortMoving, old, hx]] at ab
      exact (ab.later (later_conclude _)).of_eq keep.2.2 (by rw [keep.2.1]) (by rw [keep.1])
  · have hne : r.exposure ≠ .exposing := by rcases hx with hx | hx <;> simp [hx]
    have := heads r hr hne
    simp only [Machine.abortMoving, this.2]
    have nm : ¬ (r.exposure = .positioning ∨ r.exposure = .exposing) := by rcases hx with hx | hx <;> simp [hx]
    simp [nm, this.1]
  · have no : oldest (trigger .transport a) = none ∧ (trigger .transport a).fq = s.fq := by
      have : (trigger .transport a).fq = s.fq := by
        simp only [trigger]
        split
        · split
          · simp [hfq]
          · simp [setBlank, abortExposing, exposing, oldest, hfq, hn]
        · exact hfq
      exact ⟨by rw [oldest, this, hn]; rfl, this⟩
    simp [Machine.abortMoving, no.1, no.2]

/-- While no measurement runs, a trigger changes of the Laser Monitor nothing but the accumulators, which a setting of
the latch empties, and no profile slot's state (R185). -/
theorem trigger_idle (src : TriggerSource) {s : State} (h : s.lmn.measurement = none) :
    let t := trigger src s
    t.lmn = { s.lmn with channels := t.lmn.channels } ∧ (∀ n, (profile t n).state = (profile s n).state) ∧
    ∀ c : Colour, t.lmn.channels.get c = s.lmn.channels.get c ∨
      t.lmn.channels.get c = { s.lmn.channels.get c with accCount := 0, accSum := 0 } := by
  have prof : ∀ (c : AbortCause) (x : State) (n : Fin 2), (profile (abortExposing c x) n).state = (profile x n).state := by
    intro c x n
    simp only [abortExposing]
    split
    · next r _ =>
      have e : profile (abortRecord r c x) n = profile (takenOut r x) n := by
        rw [abortRecord_eq]
        simp only
        split <;> simp [profile]
      rw [e, (takenOut_spec r x).2.2.2.2.2.2.2.2.1 n]
      split
      · next hn => rw [hn]
      · rfl
    · rfl
  simp only [trigger]
  split
  · split
    · exact ⟨rfl, fun _ => rfl, fun _ => .inl rfl⟩
    · simp only [setBlank]
      generalize hd : darkenOutputs (abortExposing (if src = .transport then .transport else .blanked)
        (s.withBlc { s.blc with latch := true, causes := causeOf src })) = d
      have dl : d.lmn = s.lmn ∧ d.blc.latch = true ∧ ∀ n, (profile d n).state = (profile s n).state := by
        rw [← hd]
        refine ⟨by simp, by simp, fun n => ?_⟩
        rw [show ∀ x : State, profile (darkenOutputs x) n = profile x n from fun x => by simp [profile]]
        exact prof (if src = .transport then .transport else .blanked)
          (s.withBlc { s.blc with latch := true, causes := causeOf src }) n
      rw [(abandonMeasurement_spec d).2.2.2.1 (by rw [dl.1, h])]
      refine ⟨?_, dl.2.2, fun c => .inr ?_⟩
      · simp [emptyStopped, dl.1]
      · rw [emptyStopped_latched dl.2.1, dl.1]
  · exact ⟨rfl, fun _ => rfl, fun _ => .inl rfl⟩

/-- The polygon loses lock (R121, R159, R165): it is ACQUIRING, no measurement runs, every accumulator is empty, and
the POLYGON trigger has reached the blanking where it is enabled. -/
theorem loseLock_spec (s : State) :
    let t := conclude (loseLock s)
    (s.blc.mask.getLsbD 1 = true → Blanked 0x02 .blanked s t) ∧ (s.blc.mask.getLsbD 1 = false → t.blc = s.blc) ∧
    t.lmn.measurement = none ∧
    (∀ c : Colour, (t.lmn.channels.get c).accCount = 0 ∧ (t.lmn.channels.get c).accSum = 0) ∧
    t.cpr.current.polygon = .acquiring ∧ CopyIsCurrent t := by
  generalize hb : s.withStu { s.stu with polygon := .acquiring, runCount := 0, acquireTimer := some (timebase s) } = b
  have bk : b.blc = s.blc ∧ b.lmn = s.lmn ∧ b.pst = s.pst ∧ b.fq = s.fq ∧ b.rtx = s.rtx ∧
      b.stu.writing = s.stu.writing ∧ b.stu.scanCounter = s.stu.scanCounter ∧ b.stu.polygon = .acquiring := by
    rw [← hb]; simp
  obtain ⟨bblc, blmn, bpst, bfq, brtx, bw, bc, bpol⟩ := bk
  have ms := abandonMeasurement_spec b
  generalize ha : emptyStopped (abandonMeasurement b) = a
  have ak : a.blc = b.blc ∧ a.fq = b.fq ∧ a.rtx = b.rtx ∧ a.stu = b.stu := by
    rw [← ha]
    simp only [abandonMeasurement]
    split <;> simp [endMeasurement, endUse, emptyStopped]
  obtain ⟨ablc, afq, artx, astu⟩ := ak
  have am : a.lmn.measurement = none := by rw [← ha]; exact ms.1
  have acc : ∀ c : Colour, (a.lmn.channels.get c).accCount = 0 ∧ (a.lmn.channels.get c).accSum = 0 := by
    intro c
    have : loopRuns (abandonMeasurement b) c = false := by
      have hp : (abandonMeasurement b).stu.polygon = .acquiring := by
        rw [show (abandonMeasurement b).stu = a.stu by rw [← ha]; rfl, astu, bpol]
      simp only [loopRuns, loopsAllowed, hp]
      simp
    rw [← ha]
    simp [emptyStopped, this, emptyAccumulator]
  have aval : ∀ m, s.lmn.measurement = some m → a.lmn.value = .result .abandoned m.slot ∧
      ∀ p, (profile s m.slot).prior = some p →
        (profile a m.slot).state = match p with | .valid => .valid | .incomplete => .incomplete := by
    intro m hm
    have h := ms.2.2.2.2 m (by rw [blmn, hm])
    refine ⟨by rw [← ha]; exact h.1, fun p hp => ?_⟩
    have hp' : (profile b m.slot).prior = some p := by rw [← hp]; simp [profile, bpst]
    rw [← ha]
    exact (h.2 p hp').1
  have tr := trigger_spec .polygon a
  rw [show sourceEnabled a.blc .polygon = s.blc.mask.getLsbD 1 by simp [sourceEnabled, ablc, bblc, sourceBit]] at tr
  rw [show loseLock s = trigger .polygon a by rw [← ha, ← hb]; rfl]
  have idle := trigger_idle .polygon am
  have told := (conclude_spec (trigger .polygon a)).1.2
  have pol : (trigger .polygon a).stu.polygon = .acquiring := by
    have cut : ∀ (c : AbortCause) (x : State), (abortExposing c x).stu.polygon = x.stu.polygon := by
      intro c x
      simp only [abortExposing]
      split
      · next r _ =>
        rw [abortRecord_eq]
        have h := (takenOut_spec r x).2.2.1
        simp only
        split <;> simp [h] <;> split <;> simp
      · rfl
    simp only [trigger]
    split
    · split
      · simp [astu, bpol]
      · simp [setBlank, emptyStopped, darkenOutputs, stopLine_stu, cut, astu, bpol]
    · rw [astu, bpol]
  refine ⟨fun hm => ?_, fun hm => ?_, ?_, fun c => ?_, ?_, told⟩
  · obtain ⟨h1, h2⟩ := (tr.2.2 hm).conclude
    refine ⟨by rw [h1, ablc, bblc]; rfl, fun hl => ?_⟩
    have hx := h2 (by rw [ablc, bblc]; exact hl)
    obtain ⟨a1, a2, a3, a4, a5, -, a8, a7⟩ := hx
    refine ⟨a1, a2, a3, a4, a5, fun m hmm => ?_, a8.before ?_, fun r hr hx => ?_⟩
    · have v := aval m hmm
      refine ⟨by rw [← v.1, show ∀ x : State, (conclude x).lmn = x.lmn by intro x; simp, idle.1], fun p hp => ?_⟩
      have e := idle.2.1 m.slot
      cases p <;> exact Eq.trans (by simp [profile]) (e.trans (v.2 _ hp))
    · have : RequestKept b a := by rw [← ha]; exact abandonMeasurement_request b
      exact (RequestKept.of_eq (by rw [← hb]; rfl)).trans this
    · exact (a7 r (by rw [afq, bfq]; exact hr) hx).of_eq (fun _ => by rw [astu]; exact ⟨bw, bc⟩)
        (by rw [artx, brtx]) (by rw [afq, bfq])
  · rw [tr.2.1 hm]
    simp [ablc, bblc]
  · rw [show ∀ x : State, (conclude x).lmn = x.lmn by intro x; simp, idle.1]
    exact am
  · rw [show ∀ x : State, (conclude x).lmn = x.lmn by intro x; simp]
    rcases idle.2.2 c with e | e
    · rw [e]
      exact acc c
    · rw [e]
      exact ⟨rfl, rfl⟩
  · have := told
    rw [CopyIsCurrent] at this
    rw [this]
    simp [ownerValues, pol]

/-- A stage operation that fails takes the done indication of its moment, and nothing else of the sensors (R178). -/
@[simp] theorem stageFailed_sen (s : State) :
    (stageFailed s).sen = { s.sen with stageDone := { s.sen.stageDone with fired := false } } := by
  simp only [stageFailed]
  split <;> simp [doneTaken, changeTaken]

end Sys2Proof.Machine
end

