-- ==== Sys2Proof/Laws/Time.lean ====
section
/-! SUPPORT. What the operations on time say: the whole counts of a moment, the timebase and the ticks, each with what it
makes of the moments that are computed from it. -/

namespace Sys2Proof.Machine

open Sys2Proof

theorem partsPerCount_eq : Config.partsPerCount = 1310720 := rfl

theorem counts_eq (n : Nat) : counts n = n * 1310720 := rfl

theorem wholeCounts_eq (t : Nat) : wholeCounts t = t / 1310720 := rfl

@[simp] theorem wholeCounts_counts (n : Nat) : wholeCounts (counts n) = n := by
  rw [counts_eq, wholeCounts_eq]; omega

@[simp] theorem wholeCounts_add_counts (t n : Nat) : wholeCounts (t + counts n) = wholeCounts t + n := by
  rw [counts_eq, wholeCounts_eq, wholeCounts_eq]; omega

/-- A moment lies before a whole count exactly where fewer whole counts have passed. -/
theorem lt_counts_iff (t n : Nat) : t < counts n ↔ wholeCounts t < n := by
  rw [counts_eq, wholeCounts_eq]; omega

theorem counts_le_iff (t n : Nat) : counts n ≤ t ↔ n ≤ wholeCounts t := by
  rw [counts_eq, wholeCounts_eq]; omega

/-- The next whole count lies ahead, by one count at most. -/
theorem nextCount_spec (t : Nat) : t < nextCount t ∧ nextCount t ≤ t + counts 1 := by
  rw [nextCount, counts_eq, counts_eq, wholeCounts_eq]; omega

theorem timebase_eq (s : State) : timebase s = s.clock / 131072000000 := by
  rw [timebase, wholeCounts_eq, Config.countsPerMs]; omega

theorem dueAt_eq (start ms : Nat) : dueAt start ms = (start + ms) * 131072000000 := by
  rw [dueAt, counts_eq, Config.countsPerMs]; omega

/-- An interval of the timebase has ended exactly where its moment has come (R118). -/
theorem elapsedMs_iff (start ms : Nat) (s : State) : elapsedMs start ms s = true ↔ dueAt start ms ≤ s.clock := by
  rw [dueAt, counts_le_iff, elapsedMs, timebase, decide_eq_true_iff, Nat.le_div_iff_mul_le (by decide)]

/-- So many ticks have passed since an edge exactly where their moment has come (R139). -/
theorem ticksSince_iff (edge ticks : Nat) (s : State) (hn : 0 < s.stu.nominal) (he : edge ≤ s.clock) :
    ticks ≤ ticksSince edge s ↔ momentAfter edge ticks s ≤ s.clock := by
  rw [ticksSince, momentAfter, Nat.le_div_iff_mul_le hn]; omega

end Sys2Proof.Machine
end

