-- ==== Sys2Proof/Laws/Inputs.lean ====
section
/-! SUPPORT. What the inputs can do, said once: time, which stops at what waits; what inputs and traces change; the
end of a timer; a break; the search for a marker; a good block on the lane; and the filters. -/

namespace Sys2Proof.Machine

open Sys2Proof

/-! ## Time (log entry 2) -/

theorem PlacingKeeps.refl (s : State) : PlacingKeeps s s := by simp [PlacingKeeps]

theorem PlacingKeeps.trans {s t u : State} (h : PlacingKeeps s t) (k : PlacingKeeps t u) : PlacingKeeps s u := by
  obtain ⟨a1, a2, a3, a4, a5, a6, a⟩ := h
  obtain ⟨b1, b2, b3, b4, b5, b6, b⟩ := k
  refine ⟨b1.trans a1, b2.trans a2, b3.trans a3, b4.trans a4, b5.trans a5, b6.trans a6, fun c => ?_⟩
  obtain ⟨a1, a2, a3, a4, a5, a6, a7, a8⟩ := a c
  obtain ⟨b1, b2, b3, b4, b5, b6, b7, b8⟩ := b c
  exact ⟨b1.trans a1, b2.trans a2, b3.trans a3, b4.trans a4, b5.trans a5, b6.trans a6, b7.trans a7, b8.trans a8⟩

/-- Time passes no further than its target and the moments of all that waits, and as far as one of them. -/
theorem stopBy_spec (t : Nat) (s : State) :
    stopBy t s ≤ t ∧ (∀ e ∈ waiting s, stopBy t s ≤ e.1) ∧
    (stopBy t s = t ∨ ∃ e ∈ waiting s, stopBy t s = e.1) := by
  have h : ∀ (l : List (Nat × Option Instr)) (m : Nat),
      let n := l.foldl (fun m e => min m e.1) m
      n ≤ m ∧ (∀ e ∈ l, n ≤ e.1) ∧ (n = m ∨ ∃ e ∈ l, n = e.1) := by
    intro l
    induction l with
    | nil => simp
    | cons x l ih =>
      intro m
      obtain ⟨h1, h2, h3⟩ := ih (min m x.1)
      refine ⟨le_trans h1 (min_le_left _ _), ?_, ?_⟩
      · simpa using ⟨le_trans h1 (min_le_right _ _), fun a b k => h2 (a, b) k⟩
      · simp only [List.foldl_cons, List.mem_cons]
        rcases h3 with h3 | ⟨e, he, h3⟩
        · rcases min_choice m x.1 with k | k <;> rw [h3, k]
          · exact .inl rfl
          · exact .inr ⟨x, .inl rfl, rfl⟩
        · exact .inr ⟨e, .inr he, h3⟩
  exact h (waiting s) t

@[simp] theorem passTo_clock (t : Nat) (s : State) : (passTo t s).clock = max s.clock (stopBy t s) := advanceTo_clock _ s

/-- Time that passes towards a moment stops at what waits: it passes no moment later than the present of anything. -/
theorem passTo_stops (t : Nat) (s : State) :
    (passTo t s).clock ≤ max s.clock t ∧ ∀ e ∈ waiting s, (passTo t s).clock ≤ max s.clock e.1 := by
  obtain ⟨h1, h2, -⟩ := stopBy_spec t s
  rw [passTo_clock]
  exact ⟨by omega, fun e he => by have := h2 e he; omega⟩

/-- Time comes to a later moment exactly where nothing waits of a moment before it. -/
theorem passTo_arrives {t : Nat} {s : State} (h : s.clock < t) :
    (passTo t s).clock = t ↔ ∀ e ∈ waiting s, t ≤ e.1 := by
  obtain ⟨h1, h2, h3⟩ := stopBy_spec t s
  rw [passTo_clock]
  constructor
  · intro k e he
    have := h2 e he
    omega
  · intro k
    have : stopBy t s = t := by
      rcases h3 with h3 | ⟨e, he, h3⟩
      · exact h3
      · have := k e he; omega
    omega

/-! ## Inputs -/

/-- An input leaves the LRX as it is but for the bytes heard and the break timer. -/
theorem hear_keeps (now : Nat) (i : Input) (l : Lrx) :
    hear now i l = { l with buffer := (hear now i l).buffer, stirred := (hear now i l).stirred,
                            lastTransition := (hear now i l).lastTransition } := by
  cases i <;> try rfl
  simp only [hear, hearByte, stir]
  split
  · rfl
  · rfl
  · split <;> rfl

@[simp] theorem inputComes_clock (i : Input) (s : State) : (inputComes i s).clock = s.clock := rfl

/-- What coming inputs and the time between them change, of a state: the clock does not fall, the LRX changes only in what
it has heard, and placing keeps what it keeps. -/
def Passed (s t : State) : Prop := s.clock ≤ t.clock ∧ t.lrx = heardAs t s ∧ PlacingKeeps s t

theorem Passed.refl (s : State) : Passed s s := ⟨le_refl _, rfl, .refl s⟩

theorem Passed.trans {s t u : State} (h : Passed s t) (k : Passed t u) : Passed s u := by
  obtain ⟨a, b, c⟩ := h
  obtain ⟨a', b', c'⟩ := k
  exact ⟨le_trans a a', by rw [b', heardAs, b]; rfl, c.trans c'⟩

theorem passed_passTo (t : Nat) (s : State) : Passed s (passTo t s) :=
  ⟨by simp, by simp [heardAs], advanceTo_keeps _ s⟩

theorem passed_inputComes (i : Input) (s : State) : Passed s (inputComes i s) := by
  refine ⟨le_refl _, ?_, by simp [PlacingKeeps, inputComes]⟩
  have := hear_keeps s.clock i s.lrx
  simpa [inputComes, heardAs] using this

theorem passed_withComing (es : List (Nat × Input)) (s : State) : Passed s (withComing es s) :=
  ⟨le_refl _, by simp [heardAs], by simp [PlacingKeeps, withComing]⟩

theorem passed_takeComing (t : Nat) (es : List (Nat × Input)) (s : State) : Passed s (takeComing t es s) := by
  induction es generalizing s with
  | nil => exact .refl s
  | cons e rest ih =>
    simp only [takeComing]
    split
    · exact (passed_passTo _ s).trans ((passed_withComing _ _).trans ((passed_inputComes _ _).trans (ih _)))
    · exact .refl s

/-- Time that passes with the inputs on its way. -/
theorem passed_reach (t : Nat) (s : State) : Passed s (reach t s) :=
  (passed_takeComing _ _ s).trans (passed_passTo _ _)

/-- A trace that is brought, with the time that its inputs take. -/
theorem passed_sense (seen : Trace) (s : State) : Passed s (sense seen s) :=
  (passed_withComing _ s).trans (passed_reach _ _)

/-- A trace leaves the LRX as it is but for the bytes heard and the break timer. -/
theorem sense_lrx (seen : Trace) (s : State) : (sense seen s).lrx = heardBy seen s := (passed_sense seen s).2.1

theorem sense_link (seen : Trace) (s : State) : (sense seen s).lrx.link = s.lrx.link := by rw [sense_lrx]; rfl

theorem sense_crcRun (seen : Trace) (s : State) : (sense seen s).lrx.crcRun = s.lrx.crcRun := by rw [sense_lrx]; rfl

/-- A trace changes nothing that placing leaves alone. -/
theorem sense_placing (seen : Trace) (s : State) : PlacingKeeps s (sense seen s) := (passed_sense seen s).2.2

/-- With no line being placed, the PFM and the lanes are as they were. -/
def Unplaced (s t : State) : Prop := s.pfm.line = none → t.pfm = s.pfm ∧ t.lanes = s.lanes

theorem Unplaced.trans {s t u : State} (h : Unplaced s t) (k : Unplaced t u) : Unplaced s u := fun n => by
  obtain ⟨a, b⟩ := h n
  obtain ⟨a', b'⟩ := k (by rw [a]; exact n)
  exact ⟨a'.trans a, b'.trans b⟩

theorem unplaced_passTo (t : Nat) (s : State) : Unplaced s (passTo t s) := fun n => by
  rw [passTo, advanceTo_none n]; exact ⟨rfl, rfl⟩

theorem unplaced_takeComing (t : Nat) (es : List (Nat × Input)) (s : State) : Unplaced s (takeComing t es s) := by
  induction es generalizing s with
  | nil => exact fun _ => ⟨rfl, rfl⟩
  | cons e rest ih =>
    simp only [takeComing]
    split
    · exact (unplaced_passTo _ s).trans fun n => ih (inputComes e.2 (withComing rest (passTo e.1 s))) n
    · exact fun _ => ⟨rfl, rfl⟩

/-- Time that passes while no line is being placed places nothing. -/
theorem unplaced_reach (t : Nat) (s : State) : Unplaced s (reach t s) :=
  (unplaced_takeComing _ _ s).trans (unplaced_passTo _ _)

/-- A trace that is brought while no line is being placed places nothing. -/
theorem unplaced_sense (seen : Trace) (s : State) : Unplaced s (sense seen s) :=
  unplaced_reach _ (bring seen s)

/-- Where no input is to come by a moment, time alone passes towards it. -/
theorem reach_eq_passTo {t : Nat} {s : State} (h : ∀ e ∈ s.sen.coming, t < e.1) : reach t s = passTo t s := by
  cases hc : s.sen.coming with
  | nil => simp [reach, hc, takeComing]
  | cons e rest =>
    have := h e (by simp [hc])
    have : ¬ e.1 ≤ t := by omega
    simp [reach, hc, takeComing, this]

/-- A trace of no inputs, with none to come and no line being placed, does nothing. -/
theorem sense_nil {s : State} (hc : s.sen.coming = []) (hl : s.pfm.line = none) : sense [] s = s := by
  have hb : bring [] s = s := by
    simp only [bring, withComing, momentsFrom, List.append_nil]
    rfl
  have ht : broughtTo s = s.clock := by simp [broughtTo, hc]
  have hm : max s.clock (stopBy s.clock s) = s.clock := by
    have := (stopBy_spec s.clock s).1
    omega
  have hp : passSensors s.clock s.clock s.sen = s.sen := by simp [passSensors, passEdge, passLevel]
  rw [sense, hb, ht, reach_eq_passTo (by simp [hc]), passTo, advanceTo_none hl, clockedTo, hm, hp]
  rfl

/-- The end of a timer or a window that runs: where time comes to its moment it has its effect there, and otherwise time
passes as far as it can. -/
theorem atEnd_some (t : Nat) (effect : State → State) (s : State) :
    (t ≤ (reach t s).clock → atEnd (some t) effect s = effect (reach t s)) ∧
    ((reach t s).clock < t → atEnd (some t) effect s = reach t s) := by
  constructor
  · intro h; simp [atEnd, h]
  · intro h
    have : ¬ t ≤ (reach t s).clock := by omega
    simp [atEnd, this]

/-- Where no timer runs nothing happens. -/
@[simp] theorem atEnd_none (effect : State → State) (s : State) : atEnd none effect s = s := rfl

/-! ## A break (R8) -/

/-- A block that a break cuts is not whole: where the lane has no event left and fewer than three blocks failed, the
block in reception lacks bytes. -/
theorem receiving_incomplete {l : Lrx} (he : laneEvent l = none) (hc : l.crcRun < 3) (hr : receiving l = true) :
    l.buffer.length < blockSize l.buffer := by
  simp only [receiving, Bool.and_eq_true, beq_iff_eq, decide_eq_true_eq] at hr
  obtain ⟨hl, hm, h7, hn⟩ := hr
  by_contra hb
  have h4 : ¬ l.buffer.length < 4 := by omega
  have h7' : ¬ l.buffer.length < 7 := by omega
  have hn' : ¬ Config.maxLength < lengthHeard l.buffer := by omega
  simp only [laneEvent, hl, hc, if_true, syncedEvent, h4, h7', hn', hm, hb, if_false, ne_eq, not_true_eq_false] at he
  split at he <;> simp at he

/-! ## The search for a marker (R5) -/

/-- The search drops bytes from the front, each while four or more stand that are not the marker, and stops at a marker
or with fewer than four bytes. -/
theorem searched_spec (bs : List Byte) :
    ∃ n, searched bs = bs.drop n ∧ (∀ k < n, 4 ≤ (bs.drop k).length ∧ (bs.drop k).take 4 ≠ marker) ∧
      ((searched bs).length < 4 ∨ (searched bs).take 4 = marker) := by
  induction bs with
  | nil => exact ⟨0, rfl, by simp, by simp [searched]⟩
  | cons b rest ih =>
    simp only [searched]
    split
    · next h => exact ⟨0, rfl, by simp, h⟩
    · next h =>
      obtain ⟨n, h1, h2, h3⟩ := ih
      rw [not_or] at h
      refine ⟨n + 1, h1, fun k hk => ?_, h3⟩
      cases k with
      | zero => exact ⟨Nat.le_of_not_lt h.1, h.2⟩
      | succ k => exact h2 k (by omega)

/-- Bytes that begin with the marker are kept. -/
theorem searched_marker {bs : List Byte} (h : bs.take 4 = marker) : searched bs = bs := by
  cases bs with
  | nil => rfl
  | cons b rest => simp only [searched, h, or_true, if_true]

/-! ## A good block on the lane (R2, R3, R6) -/

@[simp] theorem be1_length (n : Nat) : (be1 n).length = 1 := rfl
@[simp] theorem be2_length (n : Nat) : (be2 n).length = 2 := rfl
@[simp] theorem be4_length (n : Nat) : (be4 n).length = 4 := rfl
@[simp] theorem marker_length : marker.length = 4 := rfl

/-- The bytes of a block, in the order in which they come. -/
theorem blockBytes_eq (kind : Nat) (payload rest : List Byte) :
    blockBytes kind payload ++ rest =
      marker ++ (be1 kind ++ (be2 payload.length ++ (payload ++
        (be4 (crc32 (be1 kind ++ be2 payload.length ++ payload)).toNat ++ rest)))) := by
  simp [blockBytes]

theorem lengthHeard_block (kind : Nat) {payload : List Byte} (rest : List Byte) (h : payload.length < 65536) :
    lengthHeard (blockBytes kind payload ++ rest) = payload.length := by
  have := field_be2 h (marker ++ be1 kind)
    (payload ++ (be4 (crc32 (be1 kind ++ be2 payload.length ++ payload)).toNat ++ rest))
  rw [lengthHeard, blockBytes_eq]
  simpa using this

theorem blockSize_block (kind : Nat) {payload : List Byte} (rest : List Byte) (h : payload.length < 65536) :
    blockSize (blockBytes kind payload ++ rest) = (blockBytes kind payload).length := by
  rw [blockSize, lengthHeard_block kind rest h]
  simp [blockBytes]
  omega

theorem crcPasses_block (kind : Nat) {payload : List Byte} (rest : List Byte) (h : payload.length < 65536) :
    crcPasses (blockBytes kind payload ++ rest) = true := by
  have hc := field_be4 (crc32 (be1 kind ++ be2 payload.length ++ payload)).isLt
    (marker ++ be1 kind ++ be2 payload.length ++ payload) rest
  simp only [crcPasses, lengthHeard_block kind rest h, decide_eq_true_eq]
  have e1 : ((blockBytes kind payload ++ rest).drop 4).take (3 + payload.length) =
      be1 kind ++ be2 payload.length ++ payload := by
    have h4 : (blockBytes kind payload ++ rest).drop 4 =
        (be1 kind ++ be2 payload.length ++ payload) ++
          (be4 (crc32 (be1 kind ++ be2 payload.length ++ payload)).toNat ++ rest) := by
      rw [blockBytes_eq]
      simp [marker]
    rw [h4, List.take_append_of_le_length (by simp; omega), List.take_of_length_le (by simp; omega)]
  rw [e1, blockBytes_eq]
  have e : 4 + (1 + (2 + payload.length)) = 7 + payload.length := by omega
  simpa [List.append_assoc, e] using hc.symm

/-- A good block that has arrived is the lane's next event, and the bytes behind it are those that follow. -/
theorem BlockArrived.event {kind : Byte} {payload rest : List Byte} {l : Lrx} (h : BlockArrived kind payload rest l) :
    laneEvent l = some (.goodBlock kind payload) ∧ behindBlock l = rest := by
  obtain ⟨hl, hc, hp, hb⟩ := h
  have hp' : payload.length ≤ 4800 := hp
  have hp2 : payload.length < 65536 := by omega
  have hk : be1 kind.toNat = [kind] := by simp [be1]
  have hlen : (blockBytes kind.toNat payload ++ rest).length = 11 + payload.length + rest.length := by
    simp [blockBytes]; omega
  constructor
  · have ht : (blockBytes kind.toNat payload ++ rest).take 4 = marker := by rw [blockBytes_eq]; rfl
    have hk4 : kindHeard (blockBytes kind.toNat payload ++ rest) = kind := by
      rw [blockBytes_eq, hk]; rfl
    have hpay : payloadHeard (blockBytes kind.toNat payload ++ rest) = payload := by
      rw [payloadHeard, lengthHeard_block kind.toNat rest hp2, blockBytes_eq, hk]
      simp [marker, be2]
    simp only [laneEvent, hl, hc, if_true, hb, syncedEvent, hlen, ht, lengthHeard_block kind.toNat rest hp2, blockSize,
      crcPasses_block kind.toNat rest hp2, hk4, hpay, Config.maxLength, not_true_eq_false, if_false, ne_eq]
    have a : ¬ 11 + payload.length + rest.length < 4 := by omega
    have b : ¬ 11 + payload.length + rest.length < 7 := by omega
    have c : ¬ 4800 < payload.length := by omega
    have d : ¬ 11 + payload.length + rest.length < 11 + payload.length := by omega
    simp [a, b, c, d]
  · rw [behindBlock, hb, blockSize_block kind.toNat rest hp2]
    simp

/-! ## Filters (R119, R168, R183) -/

/-- Four active samples in a row after an inactive one make an edge. -/
theorem passEdge_fired (n : Nat) (f : EdgeFilter) :
    (passEdge n f).fired = (f.fired || (f.shown && decide (f.run < Config.filterSamples ∧
      Config.filterSamples ≤ f.run + n))) := by
  simp only [passEdge]
  cases hs : f.shown <;> by_cases hn : n = 0 <;> simp [hn]

/-- No edge comes before the moment at which the filter is to have it. -/
theorem passEdge_quiet {now t m : Nat} {f : EdgeFilter} (h : edgeMoment now f = some m) (hf : f.fired = false)
    (ht : t < m) : (passEdge (wholeCounts t - wholeCounts now) f).fired = false := by
  rw [passEdge_fired, hf]
  simp only [edgeMoment, hf, Bool.false_eq_true, if_false] at h
  split at h
  · simp only [Option.some.injEq] at h
    rw [← h, lt_counts_iff] at ht
    simp; omega
  · simp at h

/-- The level that an input shows is not changed by time. -/
theorem passEdge_shown (n : Nat) (f : EdgeFilter) : (passEdge n f).shown = f.shown := by
  simp only [passEdge]
  repeat' split
  all_goals rfl

theorem passLevel_shown (used : Bool → Bool) (now t : Nat) (f : LevelFilter) :
    (passLevel used now t f).shown = f.shown := by
  simp only [passLevel]
  repeat' split
  all_goals rfl

theorem slowSamples_eq (t : Nat) : slowSamples t = t / 131072000 := by
  rw [slowSamples, wholeCounts_eq, Config.samplePeriod]; omega

/-- No change that is used comes before the moment at which the filter is to have it. -/
theorem passLevel_quiet {used : Bool → Bool} {now t m : Nat} {f : LevelFilter}
    (h : changeMoment used now f = some m) (hf : f.fired = false) (ht : t < m) :
    (passLevel used now t f).fired = false := by
  simp only [changeMoment, hf, Bool.false_eq_true, if_false] at h
  split at h
  · simp only [Option.some.injEq] at h
    rw [← h, lt_counts_iff, Config.samplePeriod, ← Nat.div_lt_iff_lt_mul (by decide)] at ht
    have hn : slowSamples t - slowSamples now = 0 ∨
        f.run + (slowSamples t - slowSamples now) < Config.filterSamples := by
      simp only [slowSamples, Config.samplePeriod, Config.filterSamples] at ht ⊢
      omega
    simp only [passLevel]
    rcases hn with hn | hn
    · simp [hn, hf]
    · simp only [hn, if_true]
      repeat' split
      all_goals exact hf
  · simp at h

end Sys2Proof.Machine
end

