-- ==== Sys2Proof/Laws/Tables.lean ====
section
/-! SUPPORT. The addressed tables (the CDTs, the compiled tables, the hold buffers): a read after a write, and the
canonical form that every operation on a table keeps, so that equal tables are equal lists. -/

namespace Sys2Proof.Machine

open Sys2Proof

variable {α : Type} [DecidableEq α]

/-- The canonical form from a higher bound is the canonical form from a lower one. -/
theorem tableWfFrom_mono {d : α} {lo hi : Nat} {t : Table α} (h : lo ≤ hi) (ht : tableWfFrom d hi t = true) :
    tableWfFrom d lo t = true := by
  cases t with
  | nil => rfl
  | cons e rest =>
    simp only [tableWfFrom, Bool.and_eq_true, decide_eq_true_eq] at ht ⊢
    exact ⟨⟨by omega, ht.1.2⟩, ht.2⟩

/-- Below its bound a canonical table lists nothing. -/
theorem tableRead_below {d : α} {lo i : Nat} {t : Table α} (ht : tableWfFrom d lo t = true) (hi : i < lo) :
    tableRead d t i = d := by
  induction t generalizing lo with
  | nil => rfl
  | cons e rest ih =>
    simp only [tableWfFrom, Bool.and_eq_true, decide_eq_true_eq] at ht
    have : i ≠ e.1 := by omega
    simp only [tableRead, this, if_false]
    exact ih ht.2 (by omega)

/-- A write keeps the canonical form. -/
theorem tableWrite_wfFrom {d v : α} {lo i : Nat} {t : Table α} (ht : tableWfFrom d lo t = true) (hi : lo ≤ i) :
    tableWfFrom d lo (tableWrite d t i v) = true := by
  induction t generalizing lo with
  | nil =>
    simp only [tableWrite]
    split
    · rfl
    · next h => simp [tableWfFrom, hi, h]
  | cons e rest ih =>
    have hw := ht
    simp only [tableWfFrom, Bool.and_eq_true, decide_eq_true_eq] at ht
    simp only [tableWrite]
    split
    · next h =>
      split
      · exact hw
      · next hv =>
        simp only [tableWfFrom, Bool.and_eq_true, decide_eq_true_eq]
        exact ⟨⟨hi, hv⟩, ⟨by omega, ht.1.2⟩, ht.2⟩
    · split
      · next h =>
        split
        · exact tableWfFrom_mono (by omega) ht.2
        · next hv =>
          subst h
          simp only [tableWfFrom, Bool.and_eq_true, decide_eq_true_eq]
          exact ⟨⟨hi, hv⟩, ht.2⟩
      · simp only [tableWfFrom, Bool.and_eq_true, decide_eq_true_eq]
        exact ⟨ht.1, ih ht.2 (by omega)⟩

/-- A write keeps the canonical form. -/
theorem tableWrite_wf {d v : α} {i : Nat} {t : Table α} (ht : tableWf d t = true) :
    tableWf d (tableWrite d t i v) = true := tableWrite_wfFrom ht (Nat.zero_le i)

/-- A read after a write to the same index gives the value written. -/
theorem tableRead_write_same {d v : α} {lo i : Nat} {t : Table α} (ht : tableWfFrom d lo t = true) :
    tableRead d (tableWrite d t i v) i = v := by
  induction t generalizing lo with
  | nil =>
    simp only [tableWrite]
    split
    · next h => simp [tableRead, h]
    · simp [tableRead]
  | cons e rest ih =>
    have hw := ht
    simp only [tableWfFrom, Bool.and_eq_true, decide_eq_true_eq] at ht
    simp only [tableWrite]
    split
    · next h =>
      split
      · next hv =>
        rw [hv]
        exact tableRead_below (lo := e.1) (by
          simp only [tableWfFrom, Bool.and_eq_true, decide_eq_true_eq]
          exact ⟨⟨Nat.le_refl _, ht.1.2⟩, ht.2⟩) h
      · simp [tableRead]
    · split
      · next h =>
        split
        · next hv => rw [hv]; exact tableRead_below ht.2 (by omega)
        · simp [tableRead]
      · next h1 h2 =>
        simp only [tableRead, h2, if_false]
        exact ih ht.2

/-- A write leaves every other index as it reads. -/
theorem tableRead_write_other {d v : α} {i j : Nat} {t : Table α} (h : j ≠ i) :
    tableRead d (tableWrite d t i v) j = tableRead d t j := by
  induction t with
  | nil =>
    simp only [tableWrite]
    split <;> simp [tableRead, h]
  | cons e rest ih =>
    simp only [tableWrite]
    split
    · split <;> simp [tableRead, h]
    · split
      · next he => split <;> simp [tableRead, ← he, h]
      · simp only [tableRead, ih]

/-- The table of a function's values lists, from an index on, what the function gives where that is not `d`. -/
theorem tableOf_range' {d : α} {f : Nat → α} (lo n : Nat) :
    tableWfFrom d lo ((List.range' lo n).filterMap fun i => if f i = d then none else some (i, f i)) = true ∧
    ∀ i, tableRead d ((List.range' lo n).filterMap fun i => if f i = d then none else some (i, f i)) i =
      if lo ≤ i ∧ i < lo + n then f i else d := by
  induction n generalizing lo with
  | zero => exact ⟨rfl, fun i => by simp [tableRead]⟩
  | succ n ih =>
    obtain ⟨hw, hr⟩ := ih (lo + 1)
    rw [List.range'_succ]
    by_cases h : f lo = d
    · simp only [List.filterMap_cons, h, if_true]
      refine ⟨tableWfFrom_mono (by omega) hw, fun i => ?_⟩
      rw [hr i]
      by_cases hi : i = lo
      · subst hi; simp [h]
      · have : (lo + 1 ≤ i ∧ i < lo + 1 + n) ↔ (lo ≤ i ∧ i < lo + (n + 1)) := by omega
        simp only [this]
    · simp only [List.filterMap_cons, h, if_false]
      refine ⟨by simp [tableWfFrom, h, hw], fun i => ?_⟩
      simp only [tableRead]
      by_cases hi : i = lo
      · subst hi; simp
      · have : (lo + 1 ≤ i ∧ i < lo + 1 + n) ↔ (lo ≤ i ∧ i < lo + (n + 1)) := by omega
        simp only [hi, if_false, hr i, this]

/-- The table of a function's values is canonical. -/
theorem tableOf_wf {d : α} {n : Nat} {f : Nat → α} : tableWf d (tableOf d n f) = true := by
  have := (tableOf_range' (d := d) (f := f) 0 n).1
  rwa [← List.range_eq_range'] at this

/-- The table of a function's first `n` values reads as the function below `n` and as `d` above. -/
theorem tableRead_tableOf {d : α} {n : Nat} {f : Nat → α} (i : Nat) :
    tableRead d (tableOf d n f) i = if i < n then f i else d := by
  have := (tableOf_range' (d := d) (f := f) 0 n).2 i
  rw [← List.range_eq_range'] at this
  simpa [tableOf] using this

/-- Two canonical tables that read alike everywhere are the same table. -/
theorem table_ext {d : α} {lo : Nat} {t u : Table α} (ht : tableWfFrom d lo t = true) (hu : tableWfFrom d lo u = true)
    (h : ∀ i, tableRead d t i = tableRead d u i) : t = u := by
  induction t generalizing u lo with
  | nil =>
    cases u with
    | nil => rfl
    | cons e rest =>
      have := h e.1
      simp only [tableWfFrom, Bool.and_eq_true, decide_eq_true_eq] at hu
      simp only [tableRead, if_true] at this
      exact absurd this.symm hu.1.2
  | cons e rest ih =>
    have ht' := ht
    simp only [tableWfFrom, Bool.and_eq_true, decide_eq_true_eq] at ht
    cases u with
    | nil =>
      have := h e.1
      simp only [tableRead, if_true] at this
      exact absurd this ht.1.2
    | cons g rest' =>
      have hu' := hu
      simp only [tableWfFrom, Bool.and_eq_true, decide_eq_true_eq] at hu
      have hk : e.1 = g.1 := by
        rcases Nat.lt_trichotomy e.1 g.1 with hlt | heq | hgt
        · have := h e.1
          have hb : tableRead d (g :: rest') e.1 = d := by
            have hne : e.1 ≠ g.1 := by omega
            simp only [tableRead, hne, if_false]
            exact tableRead_below hu.2 (by omega)
          rw [hb] at this
          simp only [tableRead, if_true] at this
          exact absurd this ht.1.2
        · exact heq
        · have := h g.1
          have hb : tableRead d (e :: rest) g.1 = d := by
            have hne : g.1 ≠ e.1 := by omega
            simp only [tableRead, hne, if_false]
            exact tableRead_below ht.2 (by omega)
          rw [hb] at this
          simp only [tableRead, if_true] at this
          exact absurd this.symm hu.1.2
      have hv : e.2 = g.2 := by
        have := h e.1
        simpa [tableRead, hk] using this
      have he : e = g := Prod.ext hk hv
      subst he
      congr 1
      refine ih ht.2 hu.2 fun i => ?_
      have := h i
      by_cases hi : i = e.1
      · rw [hi, tableRead_below ht.2 (by omega), tableRead_below hu.2 (by omega)]
      · simpa [tableRead, hi] using this

end Sys2Proof.Machine
end

