-- ==== Sys2Proof/Tests/Slice0.lean ====
section
/-! SUPPORT. The model's own tests: ill-formed commands that WellFormed refuses, the manual's worked examples, one small
step for what they leave out, and a state that meets the hypotheses of each statement (a `witness_` theorem for each). -/

namespace Sys2Proof.Tests

open Sys2Proof Sys2Proof.Machine

/-! ## WellFormed -/

theorem test_wf_refuses_a_long_frame : (Instr.frame [] (List.replicate 4801 0)).wf = false := by decide +kernel

theorem test_wf_refuses_a_long_line : (Instr.line [] (List.replicate 4801 0)).wf = false := by decide +kernel

theorem test_wf_refuses_a_long_fend : (Instr.fend [] (List.replicate 4801 0)).wf = false := by decide +kernel

theorem test_wf_refuses_a_long_control_block :
    (Instr.controlBlock [] .table (List.replicate 4801 0)).wf = false := by decide +kernel

theorem test_wf_refuses_a_three_byte_length : (Instr.markerFound [] 0x10 65536).wf = false := by decide

theorem test_wf_refuses_a_known_kind_as_unknown :
    ([0x10, 0x11, 0x12, 0x20, 0x21].map fun k => (Instr.unknownKind [] k).wf) = List.replicate 5 false := by decide

theorem test_wf_refuses_a_stretch_of_no_time :
    let seen : Trace := [(3, .data 0), (0, .quiet)]
    [Instr.markerFound seen 0 0, .blockCrcFailure seen, .syncSlip seen, .lengthError seen, .linkBreak seen,
     .breakEnd seen, .unknownKind seen 0, .frame seen [], .line seen [], .fend seen [], .controlBlock seen .table [],
     .compileEnd seen 0, .entrySent seen, .beamDetectEdge seen, .polygonIndex seen, .perfEdge seen, .settleEnd seen,
     .pinDisengaged seen, .homingDone seen, .stepDone seen, .interlockOpen seen, .interlockClosed seen].map Instr.wf =
      List.replicate 22 false := by decide

theorem test_wf_takes_the_longest_block :
    (Instr.frame [(1, .quiet), (0, .data 0)] (List.replicate 4800 0)).wf = true := by decide +kernel

theorem test_no_row_has_a_word : decodeTableWord 8 0x01 = none := by decide

/-! ## The block (R2, R3): the CRC of the nine digits is the published check value of this CRC -/

theorem test_crc_of_the_digits :
    crc32 [0x31, 0x32, 0x33, 0x34, 0x35, 0x36, 0x37, 0x38, 0x39] = 0xFC891918#32 := by decide +kernel

theorem test_block_frame : (blockBytes 0x30 [0xAA]).take 8 = [0xC3, 0x5A, 0x96, 0x3C, 0x30, 0x00, 0x01, 0xAA] := by
  decide +kernel

/-! ## The exposure transfer: the worked compile, worked line and limit cases of Chapter 4 -/

/-- Red's stock curve of the worked compile (4.2). -/
def redCurve : List CurvePoint := [⟨300, 1000⟩, ⟨900, 1450⟩, ⟨1500, 1800⟩, ⟨2100, 2120⟩]

/-- Red's ladder of the worked case (4.12), with the DAC codes of 8.9. -/
def redLadder : List Rung := [⟨3900, 2600⟩, ⟨3420, 2330⟩, ⟨2980, 2060⟩, ⟨2560, 1790⟩, ⟨2170, 1520⟩]

theorem test_worked_compile :
    [250, 300, 301, 900, 1180, 2300].map (compileEntry redCurve) =
      [.base, .base, .level 1001 false, .level 1450 false, .level 1613 false, .level 2120 true] := by decide

theorem test_line_offsets_across_facets :
    [lineOffset 10 14 4 (-3), lineOffset 10 16 4 0, lineOffset 10 16 4 5] = [17, 22, 27] := by decide

theorem test_worked_line :
    [Compiled.level 1613 false, .base, .level 2120 true, .base, .level 1001 false, .level 1450 false].map
        (fun e => transfer e 17 redLadder) =
      [.pulse 3 2560 176 false false false, .dark, .pulse 1 3420 164 true false false, .dark,
       .pulse 4 2170 80 false false false, .pulse 4 2170 226 false false false] := by decide +kernel

theorem test_limit_cases :
    [2600, 2601, 2700, 1790, 1791, 1520, 304, 303, 200, 0, 4095].map (fun e => onLadder redLadder e false) =
      [.pulse 0 3900 255 false false false, .pulse 0 3900 255 false true false, .pulse 0 3900 255 false true false,
       .pulse 3 2560 255 false false false, .pulse 2 2980 137 false false false, .pulse 4 2170 255 false false false,
       .pulse 4 2170 16 false false false, .pulse 4 2170 16 false false true, .pulse 4 2170 16 false false true,
       .pulse 4 2170 16 false false true, .pulse 0 3900 255 false true false] := by decide +kernel

theorem test_sum_is_limited : [exposureOf 50 (-100), exposureOf 4090 30] = [0, 4095] := by decide

theorem test_duty_rounds_half_up : [duty 0, duty 1, duty 155, duty 1000, duty 1320] = [255, 254, 178, 26, 12] := by
  decide +kernel

/-! ## Pulse formation: the guard cases, the worked line and the timing of 8.9 -/

theorem test_guard_cases :
    [placePulse 176 8 true, placePulse 250 8 false, placePulse 250 8 true, placePulse 255 8 true,
     placePulse 200 32 true, placePulse 230 32 true, placePulse 255 32 true, placePulse 255 0 true,
     placePulse 16 32 true] =
      [(40, 215, false), (3, 252, false), (8, 255, true), (8, 255, true), (32, 231, false), (32, 255, true),
       (32, 255, true), (0, 254, false), (120, 135, false)] := by decide

theorem test_rung_in_effect_over_dark_pixels :
    let before : PulseLane := { PulseLane.initial with rung := some (3, 2560), amplitude := 2560 }
    let after := placeLane 8 (placeLane 8 (placeLane 8 before .dark) (.pulse 1 3420 164 true false false)) .dark
    let clip := placeLane 8 after (.pulse 0 3900 255 false true false)
    after.rung = some (1, 3420) ∧ after.truncations = 0 ∧ clip.pulse = some (8, 255) ∧ clip.amplitude = 3900 ∧
    clip.truncations = 1 := by decide

theorem test_timing_of_a_line :
    let s := State.reset
    [windowOpens 0 s, windowEnds 0 s, lineEnd ⟨0, 0, leadIn 64 12, 4096, 0⟩ s] =
      [counts 91250, counts 96250, 1081100 * 100000] := by decide +kernel

/-! ## Regions, segments and pixels (5.1, 6.3, 12.3) -/

theorem test_region_example :
    let regions : List Region := [⟨.dark, 20⟩, ⟨.image, 1500⟩, ⟨.fill (.all 7), 100⟩, ⟨.image, 1580⟩]
    dataLinesOf regions = 3080 ∧
    [19, 20, 1519, 1520, 1620, 3199].map (fun y => regionAt y 0 regions) =
      [some (.dark, 19), some (.image, 0), some (.image, 1499), some (.fill (.all 7), 1500), some (.image, 1500),
       some (.image, 3079)] := by decide +kernel

theorem test_segments_of_3000 :
    segmentsExpected 3000 = 3 ∧ [0, 1, 2].map (segmentWidth 3000) = [1024, 1024, 952] := by decide

theorem test_two_pixels_in_nine_bytes :
    pixelsOf [0x12, 0x34, 0x56, 0x78, 0x9A, 0xBC, 0xDE, 0xF0, 0x12] =
      [⟨0x123, 0x456, 0x789⟩, ⟨0xABC, 0xDEF, 0x012⟩] := by decide

/-! ## The Laser Monitor: the worked drift run and measurement of Chapter 9 -/

/-- Red as the worked drift run begins. -/
def redChannel : Channel := { Channel.initial with state := .ready, reference := some 2210, drift := 10 }

/-- A drift update with a sum of sixteen samples. -/
def updateWith (sum : Int) (ch : Channel) : Channel := driftUpdated 120 { ch with accCount := 16, accSum := sum }

theorem test_worked_drift_run :
    let one := updateWith 246 redChannel
    let two := updateWith 241 one
    let three := updateWith 248 two
    let four := updateWith 240 three
    let five := updateWith (-40) four
    let six := updateWith 1984 five
    [one, two, three, four, five, six].map Channel.drift = [12, 14, 16, 15, 13, 15] ∧
    [one, two, three, four, five, six].map Channel.lastMean = [some 15, some 15, some 16, some 15, some (-3), some 124] ∧
    [one, two, three, four, five, six].map Channel.beyond = [false, false, false, false, false, true] ∧
    (judged 125 six).beyond = false := by decide

theorem test_worked_measurement :
    measuredPower 193344 (-410) = 2611 ∧
    powersFailure true false [2611, 2342, 2071, 1798, 1531] = none ∧
    powersFailure "order" "spacing" [2611, 2611] = some "order" ∧
    powersFailure "order" "spacing" [2611, 2311] = none ∧
    powersFailure "order" "spacing" [2611, 2310] = some "spacing" := by decide

/-! ## Small states -/

/-- A COMMAND with tag 7 at the head of the FIFO. -/
def withCommand (code : Nat) (args : List Byte) (s : State) : State :=
  s.withCpr { s.cpr with fifo := [⟨.command, [0x00, 0x07] ++ be1 code ++ args⟩] }

/-- A TABLE block at the head of the FIFO. -/
def withTable (payload : List Byte) (s : State) : State := s.withCpr { s.cpr with fifo := [⟨.table, payload⟩] }

/-- Data bytes on the inbound lane, one at every tenth count. -/
def bytesIn (bs : List Byte) : Trace := bs.map fun b => (10, .data b)

/-- The state with the link SYNCED and these bytes heard. -/
def hearing (bs : List Byte) (s : State) : State := s.withLrx { s.lrx with link := .synced, buffer := bs }

/-- The state with a whole good block of this kind and payload on a SYNCED lane. -/
def withBlock (kind : Byte) (payload : List Byte) (s : State) : State := hearing (blockBytes kind.toNat payload) s

/-- A filtered beam-detect edge so many counts on, six or more. -/
def edgeIn (n : Nat) : Trace := [(1, .beam false), (n - 5, .beam true), (4, .quiet)]

/-- A filtered index six counts on. -/
def indexIn : Trace := [(1, .index false), (1, .index true), (4, .quiet)]

/-- An input of the other sensors keeps a level for four samples. -/
def levelIn (i : Input) : Trace := [(0, i), (400, .quiet)]

/-- The state with these frame records. -/
def withRecords (rs : List FrameRecord) (s : State) : State := s.withFq { s.fq with records := rs }

/-- The state with an outbound queue of this many REPLYs. -/
def withReplies (n : Nat) (s : State) : State :=
  s.withRtx { s.rtx with entries := List.replicate n (.block (.reply ⟨false, 7, 1, .ok, none, []⟩)) }

/-- A NOTICE of no change. -/
def aNotice : Notice := ⟨0, 0, .initial⟩

/-- A setup latched with the power-on values. -/
def aSetup : LatchedSetup := ⟨.all 0, .all 0, .all 0, 64, 8⟩

/-- A frame of 16 pixels by 2 lines, both data lines. -/
def aRecord (fsn : Nat) (e : ExposureSide) (d : DataSide) : FrameRecord :=
  { fsn := fsn, tag := 99, slot := 0, width := 16, height := 2, advance := 0, startNotice := false,
    regions := [⟨.image, 2⟩], dataLines := 2, data := d, kCur := 0, complete := 0, partialLines := 0, missing := 0,
    dataAborted := false, exposure := e, step := none, setup := some aSetup, linesWritten := 0, excess := false,
    staleLadder := false, report := none, behind := 0 }

/-- A report. -/
def aReport (fsn : Nat) : Report := reportOf (aRecord fsn .finished .closed) none State.reset

/-- A VALID profile slot with red's curve and ladder for every colour. -/
def aSlot : ProfileSlot :=
  { ProfileSlot.initial with
    state := .valid, kinds := ⟨true, true, true⟩, sct := .all redCurve, plt := .all ⟨redLadder, 0, 0⟩ }

/-- The state with profile slot 0 as given. -/
def withSlot (p : ProfileSlot) (s : State) : State := s.withPst { s.pst with slot0 := p }

/-- The payload of a FRAME like `aRecord`, with this FSN, slot and line count in its one region. -/
def frameBytes (fsn slot lines : Nat) : List Byte :=
  be1 fsn ++ be4 99 ++ be1 slot ++ be2 16 ++ be2 2 ++ be1 0 ++ be1 0 ++ be1 1 ++ be1 0 ++ be2 lines

/-- The payload of a LINE with this FSN, line number, segment and pixel count. -/
def lineBytes (fsn k segment n : Nat) : List Byte :=
  be1 fsn ++ be2 k ++ be1 segment ++ be2 n ++ List.replicate (9 * ((n + 1) / 2)) 0x12

/-- The first line of `aRecord 40`, READY. -/
def aLine (k : Nat) : LineSlot :=
  { state := .ready, fsn := some 40, k := some k, segments := [some (List.replicate 16 (.all 0x121))],
    lanesDone := .all false }

/-- The state with these line slots in place of as many FREE ones. -/
def withLines (slots : List LineSlot) (s : State) : State :=
  s.withLst { s.lst with slots := slots ++ List.replicate (40 - slots.length) .empty }

/-- The state with a link that broke at its last transition, so that no break is to come. -/
def unlinked (s : State) : State := s.withLrx { s.lrx with link := .broken }

/-- LOCKED and SYNCED on facet 3, the last edge at 0, all channels READY, the latch clear, REGISTERED at home, and the
link in BREAK. -/
def running (s : State) : State :=
  (((((unlinked s).withStu { s.stu with
      polygon := .locked, motor := true, facetSync := .synced, edgeRun := 4, lastEdge := some 0,
      periodStart := some 0 }).withLmn
    { s.lmn with channels := .all { Channel.initial with state := .ready, reference := some 2000,
                                                          captureCode := some 3000 } }).withBlc
    { s.blc with latch := false, causes := 0, interlockOpen := false }).withFtc
    { s.ftc with state := .registered, stage := .idle, position := some 0, pinsIn := true }).withSen
  { s.sen with pin := ⟨true, true, 0, false⟩, interlock := ⟨true, true, 0, false⟩ }

/-- Everything ready for the first line of `aRecord 40`. -/
def writable : State :=
  running (withLines [aLine 0] (withSlot aSlot (withRecords [aRecord 40 .exposing .opened] State.reset)))

/-- The state after a command, where it answers a next state. -/
def after (i : Instr) (s : State) : State :=
  match exec i s with
  | .next t => t
  | _ => s

/-- The first line of `aRecord 40` being written. -/
def writing : State := after (.beamDetectEdge (edgeIn 100000)) writable

/-- The state with red WARMING, CAPTURING or READY with these samples. -/
def withRed (ch : Channel) (s : State) : State :=
  s.withLmn { s.lmn with channels := { s.lmn.channels with red := ch } }

/-- A measurement of slot 0 at its last step, every colour with 64 samples. -/
def aMeasurement (step : Nat) (powers : List Nat) : Measurement :=
  { slot := 0, step := step, count := .all 64, sum := .all (64 * 1520), measured := .all powers }

/-- The state with a measurement of slot 0 running. -/
def measuring (m : Measurement) (s : State) : State :=
  (withSlot { aSlot with state := .measuring, prior := some .valid } s).withLmn
    { s.lmn with measurement := some m, value := .running 0 }

/-! ## One step of each kind that the worked examples leave out -/

theorem test_identify_answers :
    (after .identify (withCommand 0x01 [] State.reset)).rtx.entries =
      [.block (.reply ⟨false, 7, 0x01, .ok, none,
        [0x41, 0x30, 0x42, 0, 0, 2, 0, 4, 0, 40, 0, 10, 0x10, 0x00, 0x0C, 0x80]⟩)] := by decide +kernel

theorem test_wrong_number_of_arguments_is_refused :
    (after .setTrim (withCommand 0x18 [0x00] State.reset)).rtx.entries =
      [.block (.reply ⟨false, 7, 0x18, .refused, some .badArgument, []⟩)] := by decide +kernel

theorem test_read_status_of_a_fresh_part :
    ((after .readStatus (withCommand 0x02 [] State.reset)).rtx.entries.map fun e =>
      match e with | .block (.reply r) => r.data.length | _ => 0) = [122] := by decide +kernel

theorem test_line_sources_of_three_colours :
    let s := writable.withStu { writable.stu with vertical := ⟨0, 1, 3⟩ }
    [Colour.red, .green, .blue].map (laneSource (aRecord 40 .exposing .opened) 0 s) =
      [some (.slot 0), some .dark, some .dark] ∧
    laneSource (aRecord 40 .exposing .opened) 1 s .red = none := by decide +kernel

theorem test_written_line_completes_and_steps :
    let t := after .lineComplete writing
    t.stu.scanCounter = 1 ∧ t.ftc.stage = .stepping ∧ t.fq.records.map FrameRecord.linesWritten = [1] ∧
    (t.lst.slots.map LineSlot.state).take 1 = [.free] ∧
    tableRead none t.lanes.red.holdBuffer 15 = some 0x121 ∧ tableRead none t.lanes.red.holdBuffer 16 = none := by
  decide +kernel

theorem test_interlock_blanks_mid_line :
    let t := after (.interlockOpen (levelIn (.interlock false))) writing
    t.blc.latch = true ∧ t.blc.causes = 0x01 ∧ t.pfm.line = none ∧ t.pfm.lanes.red.amplitude = 0 ∧
    t.fq.records = [] ∧ t.fq.held = true ∧
    (t.rtx.entries.filterMap fun e => match e with | .block (.report r) => r.midLine | _ => none) = [true] := by
  decide +kernel

theorem test_lock_is_lost_beyond_the_band :
    (after (.beamDetectEdge (edgeIn 100500)) writable).stu.polygon = .locked ∧
    (after (.beamDetectEdge (edgeIn 100501)) writable).stu.polygon = .acquiring ∧
    (after (.beamDetectEdge (edgeIn 50000)) writable).stu.glitches = 1 := by decide +kernel

theorem test_advance_waits_for_home_then_runs :
    let s := after .advance (withCommand 0x40 [3] (running State.reset))
    let t := after (.homingDone (levelIn (.stageDone true))) s
    s.ftc.phase = some .stageReturn ∧ s.ftc.motor = false ∧ s.ftc.pinsIn = true ∧
    t.ftc.phase = some .filmRun ∧ t.ftc.motor = true ∧ t.ftc.pinsIn = false ∧ t.ftc.counter = 3 := by decide +kernel

theorem test_perf_edges_before_the_film_run_are_not_used :
    let s := after .advance (withCommand 0x40 [3] (running State.reset))
    let early := after (.homingDone (levelIn (.perf true) ++ levelIn (.stageDone true))) s
    let run := after (.homingDone []) (after (.perfEdge []) early)
    let late := after (.homingDone (levelIn (.stageDone true) ++ levelIn (.perf true))) s
    early.clock = counts 400 ∧ early.ftc.phase = some .stageReturn ∧ run.clock = counts 800 ∧
    run.ftc.phase = some .filmRun ∧
    run.ftc.counter = 3 ∧ late.clock = counts 400 ∧ (after (.perfEdge []) late).clock = counts 800 ∧
    (after (.perfEdge []) late).ftc.counter = 2 := by decide +kernel

theorem test_block_is_received_byte_by_byte :
    let bs := blockBytes 0x20 [0x00, 0x07, 0x01]
    let s := after (.markerFound (bytesIn ([0xC3, 0xC3] ++ bs.take 7)) 0x20 3) State.reset
    let t := after (.controlBlock (bytesIn (bs.drop 7)) .command [0x00, 0x07, 0x01]) s
    s.lrx.link = .synced ∧ t.cpr.fifo = [⟨.command, [0x00, 0x07, 0x01]⟩] ∧ t.lrx.buffer = [] ∧
    t.lrx.lastTransition = counts 160 ∧ t.lrx.crcFailures = 0 := by decide +kernel

theorem test_search_resumes_at_the_second_byte :
    searched [0x00, 0xC3, 0x5A, 0xC3, 0x5A, 0x96, 0x3C, 0x10] = [0xC3, 0x5A, 0x96, 0x3C, 0x10] ∧
    searched [0x00, 0xC3, 0x5A, 0x96] = [0xC3, 0x5A, 0x96] := by decide

theorem test_idle_part_breaks_its_link_after_a_millisecond :
    dueStep (State.reset.withClock (counts 99999)) = none ∧
    dueStep (State.reset.withClock (counts 100000)) = some (.linkBreak []) ∧
    (after (.linkBreak [(60000, .idle)]) State.reset).clock = counts 160000 := by decide +kernel

theorem test_a_break_within_a_trace_is_taken :
    let s := after (.frame [(200000, .data 1), (10, .data 2), (10, .data 3)] []) (hearing [0xC3] State.reset)
    let t := after (.linkBreak []) s
    let u := after (.breakEnd []) t
    let v := after (.frame [] []) u
    s.clock = counts 100000 ∧ s.lrx.buffer = [0xC3] ∧ dueStep s = some (.linkBreak []) ∧ t.lrx.link = .broken ∧
    t.lrx.breaks = 1 ∧ u.clock = counts 200000 ∧ u.lrx.link = .hunt ∧ u.lrx.buffer = [] ∧ v.lrx.buffer = [2, 3] ∧
    v.clock = counts 200020 ∧ v.sen.coming = [] := by decide +kernel

theorem test_a_whole_block_is_taken_before_the_break :
    let s := withBlock 0x20 [0x00, 0x07, 0x01] State.reset
    let t := after (.linkBreak []) (after (.controlBlock [] .command [0x00, 0x07, 0x01]) s)
    after (.linkBreak []) s = s ∧ t.clock = counts 100000 ∧ t.cpr.fifo.length = 1 ∧ t.lrx.breaks = 1 ∧
    t.lrx.blocksCut = 0 := by decide +kernel

theorem test_filters_take_four_samples :
    (sense [(0, .beam true), (3, .quiet)] State.reset).sen.beam.fired = false ∧
    (let s := sense [(0, .beam true), (9, .quiet)] State.reset
     s.sen.beam.fired = true ∧ s.clock = counts 4) ∧
    (sense [(50, .perf true), (349, .quiet)] State.reset).sen.perf.level = false ∧
    (let s := sense [(50, .perf true), (350, .quiet)] State.reset
     s.sen.perf.level = true ∧ s.sen.perf.fired = true ∧ s.clock = counts 400) := by decide +kernel

theorem test_idle_part_ends_its_compile :
    let s := withSlot { aSlot with state := .compiling, compileEnds := some (counts 7), sct := .all [] } State.reset
    dueStep (s.withClock (counts 6)) = none ∧ dueStep (s.withClock (counts 7)) = some (.compileEnd [] 0) ∧
    (profile (after (.compileEnd [] 0) s) 0).state = .valid := by decide +kernel

theorem test_a_frame_after_the_compiles_end_finds_its_slot_valid :
    let p := frameBytes 5 0 2
    let bs := blockBytes 0x10 p
    let s := withSlot { aSlot with state := .compiling, compileEnds := some (counts 15), sct := .all [] }
      (hearing (bs.take (bs.length - 2)) State.reset)
    let waits := after (.frame (bytesIn (bs.drop (bs.length - 2))) p) s
    let t := after (.frame [] p) (after (.compileEnd [] 0) waits)
    waits.clock = counts 15 ∧ waits.fq.records = [] ∧ t.clock = counts 20 ∧ t.fq.records.map FrameRecord.fsn = [5] ∧
    t.fq.refused = 0 := by decide +kernel

theorem blockArrived_withBlock {kind : Byte} {payload : List Byte} {s : State} (hr : s.lrx.crcRun < 3)
    (hl : payload.length ≤ 4800) (hc : s.sen.coming = [] := by rfl) (hp : s.pfm.line = none := by rfl) :
    BlockArrived kind payload [] (sense [] (withBlock kind payload s)).lrx := by
  have n : sense [] (withBlock kind payload s) = withBlock kind payload s := sense_nil hc hp
  rw [n]
  exact ⟨rfl, hr, hl, (List.append_nil _).symm⟩

/-- A LINE for line `k` of FSN 40 has arrived. -/
def lineArrived (k : Nat) (s : State) : State := withBlock 0x11 (lineBytes 40 k 0 16) s

theorem after_lineArrived (k : Nat) {s : State} (h : s.lrx.crcRun < 3) (hc : s.sen.coming = [] := by rfl)
    (hp : s.pfm.line = none := by rfl) :
    after (.line [] (lineBytes 40 k 0 16)) (lineArrived k s) =
      takeLine (lineBytes 40 k 0 16) (dispatchStream (lineArrived k s)) := by
  have hl : (lineBytes 40 k 0 16).length ≤ 4800 := by simp [lineBytes, be1, be2]
  have e := (blockArrived_withBlock (kind := 0x11) (payload := lineBytes 40 k 0 16) (s := s) h hl hc hp).event.1
  have n : sense [] (withBlock 0x11 (lineBytes 40 k 0 16) s) = withBlock 0x11 (lineBytes 40 k 0 16) s := sense_nil hc hp
  rw [n] at e
  simp only [after, exec, execLine, lineArrived, n, e, if_true]

/-- A frame of four data lines, of which none has come. -/
def fourLines : FrameRecord :=
  { aRecord 40 .waiting .opened with height := 4, regions := [⟨.image, 4⟩], dataLines := 4 }

theorem test_skipped_lines_are_missing :
    (after (.line [] (lineBytes 40 2 0 16)) (lineArrived 2 (withRecords [fourLines] State.reset))).fq.records.map
      (fun q => (q.kCur, q.complete, q.partialLines, q.missing)) = [(3, 1, 0, 2)] := by
  rw [after_lineArrived 2 (by decide)]
  decide +kernel

/-! ## Witnesses: states and operands that meet the hypotheses of each statement, clause by clause -/

theorem commandReady_withCommand {code : Nat} {args : List Byte} {s : State} (hc : code < 256)
    (he : s.cpr.executing = none) (hl : s.rtx.entries.length ≤ 23) (hr : OutEntry.reserved ∉ s.rtx.entries) :
    CommandReady 7 code args (withCommand code args s) :=
  ⟨by simp [withCommand, State.withCpr, headCommand, be1, commandFieldsOf, beNat, Nat.mod_eq_of_lt hc], he, hl, hr⟩

theorem witness_StepRunsTheFrontCommand : (State.reset.withPending [.identify]).pending = .identify :: [] := rfl

theorem witness_IdlePartTakesItsOwnStepOrATick :
    State.reset.pending = [] ∧ dueStep State.reset = none ∧
    dueStep (withCommand 0x01 [] State.reset) = some .identify := by decide +kernel

theorem witness_IdlePartTakesItsOwnStepOrATick_time :
    let s := State.reset.withClock (counts 100000)
    s.pending = [] ∧ waiting s = [(counts 100000, some (.linkBreak []))] ∧ counts 100000 ≤ s.clock ∧
    (∀ x ∈ waiting s, counts 100000 ≤ x.1) ∧ (reach (counts 100001) s).clock = counts 100000 ∧
    (reach (counts 100001) State.reset).clock = counts 100000 ∧
    (passTo (counts 100000) State.reset).clock = counts 100000 := by decide +kernel

/-- The line being placed. -/
def aPlacedLine : PlacedLine := writing.pfm.line.get (by decide +kernel)

theorem witness_TimeMovesOnlyTheClockAndThePlacing :
    State.reset.pfm.line = none ∧ writing.pfm.line = some aPlacedLine ∧
    (let ticks := fun t => (max writing.clock t - aPlacedLine.edge) / writing.stu.nominal
     ticks (counts 101250 - 1) < aPlacedLine.leadIn ∧ ticks (counts 101250) = aPlacedLine.leadIn ∧
     aPlacedLine.width + 63 < (ticks (counts 103000) - aPlacedLine.leadIn) / 256 + 1) := by decide +kernel

/-- LINK goes to SYNCED. -/
def linkUp : Conditions := { State.reset.cpr.current with link := .synced }

/-- A REPLY and a NOTICE in the outbound queue, the REPLY being sent or not. -/
def noticePending (sending : Bool) : State :=
  let s := enqueue (.notice aNotice) (withReplies 1 State.reset)
  s.withRtx { s.rtx with sending := sending }

/-- A NOTICE being sent. -/
def noticeSending : State := after .transmissionBegins (enqueue (.notice aNotice) State.reset)

/-- A full outbound queue, with a NOTICE that waits or none. -/
def queueFull (waiting : Option Notice) : State :=
  let s := withReplies 32 State.reset
  s.withCpr { s.cpr with waitingNotice := waiting }

theorem witness_FreshChangesProduceOneNotice :
    condSet (condChanged linkUp linkUp) &&& ~~~(0 : CondSet) = 0 ∧
    condSet (condChanged State.reset.cpr.current linkUp) &&& ~~~State.reset.cpr.latch ≠ 0 ∧
    (unsent (withReplies 31 State.reset).rtx).any isNotice = false ∧ State.reset.cpr.waitingNotice = none ∧
    (withReplies 31 State.reset).rtx.entries.length < 32 ∧
    (unsent noticeSending.rtx).any isNotice = false ∧ noticeSending.rtx.sending = true ∧
    (unsent (queueFull none).rtx).any isNotice = false ∧ 32 ≤ (queueFull none).rtx.entries.length ∧
    (queueFull (some aNotice)).cpr.waitingNotice = some aNotice := by decide +kernel

theorem witness_FreshChangesProduceOneNotice_pending :
    let reply := OutEntry.block (.reply ⟨false, 7, 1, .ok, none, []⟩)
    (noticePending true).rtx.entries = [reply] ++ [] ++ .block (.notice aNotice) :: [] ∧
    [reply].length = (if (noticePending true).rtx.sending = true then 1 else 0) ∧
    (noticePending false).rtx.entries = [] ++ [reply] ++ .block (.notice aNotice) :: [] ∧
    ([] : List OutEntry).length = (if (noticePending false).rtx.sending = true then 1 else 0) ∧
    [reply].any isNotice = false := by decide +kernel

/-- In HUNT with a marker, a kind and a length heard. -/
def hunting (length : Nat) : State :=
  State.reset.withLrx { State.reset.lrx with
    buffer := [0xC3, 0x5A, 0x96, 0x3C, 0x10, BitVec.ofNat 8 (length / 256), BitVec.ofNat 8 length] }

theorem witness_MarkerFoundStartsReception :
    (hunting 4800).lrx.link = .hunt ∧ 4800 < 65536 ∧ (4800 : Nat) ≤ 4800 ∧ (4800 : Nat) < 4801 ∧
    (sense [(5, .idle)] (hunting 4800)).lrx.buffer = [0xC3, 0x5A, 0x96, 0x3C, 0x10, 0x12, 0xC0] ∧
    (sense (bytesIn [0xC1]) ((hunting 0).withLrx { (hunting 0).lrx with
      buffer := [0xC3, 0x5A, 0x96, 0x3C, 0x10, 0x12] })).lrx.buffer =
        [0xC3, 0x5A, 0x96, 0x3C, 0x10, BitVec.ofNat 8 (4801 / 256), BitVec.ofNat 8 4801] ∧
    State.reset.sen.coming = [] ∧ (∀ x ∈ waiting State.reset, State.reset.clock + counts 100000 ≤ x.1) ∧
    (∃ x ∈ waiting State.reset, x.1 < State.reset.clock + counts 100001) := by decide +kernel

/-- The link SYNCED with a number of consecutive failures and these bytes heard. -/
def failing (n : Nat) (bs : List Byte) : State :=
  State.reset.withLrx { State.reset.lrx with link := .synced, crcRun := n, buffer := bs }

theorem witness_BadReceptionLosesTheLink :
    let body : List Byte := [0x20] ++ be2 1 ++ [0xAA]
    (failing 2 []).lrx.link = .synced ∧ (failing 2 []).lrx.crcRun < 3 ∧ [0xAA].length ≤ 4800 ∧
    ([0, 0, 0, 0] : List Byte).length = 4 ∧ [0, 0, 0, 0] ≠ be4 (crc32 body).toNat ∧
    (sense (bytesIn [0]) (failing 2 ([0xC3, 0x5A, 0x96, 0x3C] ++ body ++ [0, 0, 0]))).lrx.buffer =
      [0xC3, 0x5A, 0x96, 0x3C] ++ body ++ [0, 0, 0, 0] ++ [] ∧
    (failing 3 []).lrx.link = .synced ∧ 3 ≤ (failing 3 []).lrx.crcRun ∧
    (sense (bytesIn [0x3D]) (failing 2 [0xC3, 0x5A, 0x96])).lrx.buffer.take 4 ≠ [0xC3, 0x5A, 0x96, 0x3C] ∧
    (sense (bytesIn [0xC1]) (failing 2 [0xC3, 0x5A, 0x96, 0x3C, 0x20, 0x12])).lrx.buffer =
      [0xC3, 0x5A, 0x96, 0x3C] ++ 0x20 :: be2 4801 ++ [] ∧ 4800 < 4801 ∧ 4801 < 65536 := by decide +kernel

/-- The state with every source enabled. -/
def allEnabled (s : State) : State := s.withBlc { s.blc with mask := 0x3E }

/-- The link in BREAK. -/
def broken : State := after (.linkBreak []) State.reset

theorem witness_LinkBreakAndItsEnd :
    let s := hearing [0xC3, 0x5A, 0x96, 0x3C, 0x20, 0x12, 0xC0] (running State.reset)
    s.lrx.link ≠ .broken ∧ s.lrx.lastTransition + counts 100000 ≤ (s.withClock (counts 100000)).clock ∧
    s.lrx.link = .synced ∧ s.lrx.buffer.take 4 = [0xC3, 0x5A, 0x96, 0x3C] ∧ 7 ≤ s.lrx.buffer.length ∧
    field s.lrx.buffer 5 2 ≤ 4800 ∧ s.blc.mask.getLsbD 5 = false ∧
    (allEnabled s).blc.mask.getLsbD 5 = true ∧ (allEnabled s).blc.latch = false ∧
    (allEnabled State.reset).blc.mask.getLsbD 5 = true ∧ (allEnabled State.reset).blc.latch = true ∧
    laneEvent s.lrx = none ∧ s.lrx.crcRun < 3 ∧ laneEvent (withBlock 0x20 [1, 2, 3] State.reset).lrx ≠ none ∧
    ((failing 3 []).lrx.link = .synced ∧ 3 ≤ (failing 3 []).lrx.crcRun) ∧
    broken.lrx.link = .broken ∧ (sense [(0, .idle)] broken).lrx.stirred = true ∧
    (reach (counts 100000) (sense [(100001, .data 5)] s)).clock = counts 100000 ∧
    laneEvent (reach (counts 100000) (sense [(100001, .data 5)] s)).lrx = none ∧
    (reach (counts 100000) (sense [(0, .pin false), (400, .quiet)] s)).clock = counts 400 := by decide +kernel

/-- A number of blocks in the FIFO. -/
def loaded (n : Nat) : State := State.reset.withCpr { State.reset.cpr with fifo := List.replicate n ⟨.table, []⟩ }

theorem witness_GoodControlBlocksJoinTheFifo :
    BlockArrived (if ControlKind.command = .command then 0x20 else 0x21) [1, 2, 3] []
      (sense [] (withBlock 0x20 [1, 2, 3] (loaded 7))).lrx ∧
    (withBlock 0x20 [1, 2, 3] (loaded 7)).cpr.fifo.length < 8 ∧
    BlockArrived (if ControlKind.table = .command then 0x20 else 0x21) [1, 2, 3] []
      (sense [] (withBlock 0x21 [1, 2, 3] (loaded 8))).lrx ∧
    8 ≤ (withBlock 0x21 [1, 2, 3] (loaded 8)).cpr.fifo.length ∧
    BlockArrived 0x13 [] [] (sense [] (withBlock 0x13 [] State.reset)).lrx ∧
    (0x13 : Byte) ∉ [0x10, 0x11, 0x12, 0x20, 0x21] :=
  ⟨blockArrived_withBlock (by decide) (by decide), by decide, blockArrived_withBlock (by decide) (by decide), by decide,
   blockArrived_withBlock (by decide) (by decide), by decide⟩

/-- The part with a VALID slot 0, an aborted FSN, and these records. -/
def taking (rs : List FrameRecord) : State :=
  withSlot aSlot (withRecords rs (State.reset.withLst { State.reset.lst with abortedFsn := some 5 }))

/-- The fields of a good FRAME_HEADER: FSN 5, slot 0, two lines. -/
def goodFields : FrameFields := (frameFieldsOf (frameBytes 5 0 2)).get (by decide +kernel)

/-- The fields of a FRAME_HEADER whose regions do not add up to its height. -/
def shortFields : FrameFields := (frameFieldsOf (frameBytes 5 0 3)).get (by decide +kernel)

theorem witness_AcceptedFrameMakesARecordAndPinsItsSlot :
    let s := withBlock 0x10 (frameBytes 5 0 2)
      (taking [aRecord 1 .waiting .closed, aRecord 2 .waiting .closed, aRecord 3 .waiting .closed])
    BlockArrived 0x10 (frameBytes 5 0 2) [] (sense [] s).lrx ∧ s.fq.records.length + s.fq.backlog.length < 4 ∧
    ∃ f, frameFieldsOf (frameBytes 5 0 2) = some f ∧ (f.regions.map Region.lines).sum = f.height ∧
      (∀ q ∈ s.fq.records, q.fsn ≠ f.fsn) ∧ (profile s f.slot).state = .valid :=
  ⟨blockArrived_withBlock (by decide) (by decide), by decide +kernel, goodFields, by decide +kernel, by decide +kernel,
   by decide +kernel, by decide +kernel⟩

/-- Four records: the queue is full. -/
def four : List FrameRecord := [1, 2, 3, 4].map fun n => aRecord n .waiting .closed

theorem witness_RefusedFrameChangesOnlyTheCounts :
    (∀ payload ∈ [[], frameBytes 5 2 2, frameBytes 5 0 3, frameBytes 5 0 2],
      BlockArrived 0x10 payload [] (sense [] (withBlock 0x10 payload (taking four))).lrx) ∧
    (frameBytes 5 0 2).head? = some 5 ∧ frameFieldsOf (frameBytes 5 2 2) = none ∧
    (∃ f, frameFieldsOf (frameBytes 5 0 3) = some f ∧ (f.regions.map Region.lines).sum ≠ f.height) ∧
    (∃ f, frameFieldsOf (frameBytes 5 0 2) = some f ∧ (f.regions.map Region.lines).sum = f.height ∧
      4 ≤ (taking four).fq.records.length + (taking four).fq.backlog.length ∧
      (let s := taking [aRecord 5 .waiting .closed]
       s.fq.records.length + s.fq.backlog.length < 4 ∧ ∃ q ∈ s.fq.records, q.fsn = f.fsn) ∧
      (let s := withSlot { aSlot with state := .incomplete } (taking [])
       (∀ q ∈ s.fq.records, q.fsn ≠ f.fsn) ∧ (profile s f.slot).state ≠ .valid)) :=
  ⟨by intro payload h
      have : payload.length ≤ 4800 := by
        simp only [List.mem_cons, List.not_mem_nil, or_false] at h
        rcases h with rfl | rfl | rfl | rfl <;> decide
      exact blockArrived_withBlock (by decide) this,
   by decide +kernel, by decide +kernel, ⟨shortFields, by decide +kernel, by decide +kernel⟩, goodFields,
   by decide +kernel, by decide +kernel, by decide +kernel, by decide +kernel, by decide +kernel⟩

/-- The record whose lines arrive. -/
def openFrame : FrameRecord := aRecord 40 .waiting .opened

/-- A record and line slots. -/
def assemblingFrame (slots : List LineSlot) : State := withLines slots (withRecords [openFrame] State.reset)

/-- Line 0 of `aRecord 40`, still without its one segment. -/
def begun : LineSlot := { aLine 0 with state := .assembling, segments := [none] }

theorem witness_LineSegmentIsStoredForTheLineAtTheIndex :
    let p := lineBytes 40 0 0 16
    let f := lineFieldsOf p
    let s := lineArrived 0 (assemblingFrame [aLine 1, begun])
    let fresh := lineArrived 0 (assemblingFrame [aLine 1])
    let none' := lineArrived 0 (assemblingFrame (List.replicate 40 (aLine 1)))
    BlockArrived 0x11 p [] (sense [] s).lrx ∧ 6 ≤ p.length ∧ s.lst.abortedFsn ≠ some f.fsn ∧
    record f.fsn s = some openFrame ∧ openFrame.data = .opened ∧ f.k = openFrame.kCur ∧ f.k < openFrame.dataLines ∧
    f.segment < segmentsExpected openFrame.width ∧ f.count = min 1024 (openFrame.width - 1024 * f.segment) ∧
    p.length = 6 + 9 * ((f.count + 1) / 2) ∧
    s.lst.slots.findIdx? (assembling f.fsn) = some 1 ∧ s.lst.slots[1]? = some begun ∧
    fresh.lst.slots.findIdx? (assembling f.fsn) = none ∧
    fresh.lst.slots.findIdx? (fun sl => sl.state == .free) = some 1 ∧
    none'.lst.slots.findIdx? (assembling f.fsn) = none ∧ (∀ sl ∈ none'.lst.slots, sl.state ≠ .free) :=
  ⟨blockArrived_withBlock (by decide) (by decide), by decide +kernel⟩

theorem witness_LineSegmentIsStoredForTheLineAtTheIndex_above :
    let f := lineFieldsOf (lineBytes 40 1 0 16)
    let s := lineArrived 1 (assemblingFrame [begun])
    let none' := lineArrived 1 (assemblingFrame (begun :: List.replicate 39 (aLine 0)))
    BlockArrived 0x11 (lineBytes 40 1 0 16) [] (sense [] s).lrx ∧ record f.fsn s = some openFrame ∧
    openFrame.kCur < f.k ∧ f.k < openFrame.dataLines ∧ (∀ q ∈ s.fq.records, q.fsn = f.fsn → q = openFrame) ∧
    s.lst.slots.findIdx? (fun sl => sl.state == .free) = some 1 ∧ (∀ sl ∈ none'.lst.slots, sl.state ≠ .free) :=
  ⟨blockArrived_withBlock (by decide) (by decide), by decide +kernel⟩

/-- A PENDING record behind an OPEN one and before a younger one, with line slots. -/
def pendingFrame (slots : List LineSlot) : State :=
  withLines slots (withRecords [aRecord 39 .waiting .opened, aRecord 40 .waiting .pending, aRecord 41 .waiting .pending]
    State.reset)

theorem witness_LineSegmentIsStoredForTheLineAtTheIndex_pending :
    let f := lineFieldsOf (lineBytes 40 1 0 16)
    let s := lineArrived 1 (pendingFrame [{ begun with fsn := some 39 }])
    let none' := lineArrived 1 (pendingFrame (List.replicate 40 (aLine 0)))
    BlockArrived 0x11 (lineBytes 40 1 0 16) [] (sense [] s).lrx ∧
    record f.fsn s = some (aRecord 40 .waiting .pending) ∧
    s.fq.records = [aRecord 39 .waiting .opened] ++ aRecord 40 .waiting .pending :: [aRecord 41 .waiting .pending] ∧
    (s.fq.records.map FrameRecord.fsn).Nodup ∧ s.lst.slots.any (assembling f.fsn) = false ∧
    s.lst.slots.findIdx? (fun sl => sl.state == .free) = some 1 ∧
    none'.lst.slots.any (assembling f.fsn) = false ∧ (∀ sl ∈ none'.lst.slots, sl.state ≠ .free) :=
  ⟨blockArrived_withBlock (by decide) (by decide), by decide +kernel⟩

theorem witness_LineSegmentIsStoredForTheLineAtTheIndex_hold :
    [29, 30, 32, 33].map (fun n => freeSlots (after (.line [] (lineBytes 40 0 0 16))
      (lineArrived 0 (assemblingFrame (List.replicate n (aLine 1))))).lst) = [10, 9, 7, 6] := by
  have h : ∀ n, (assemblingFrame (List.replicate n (aLine 1))).lrx.crcRun < 3 := fun _ => (by decide : (0 : Nat) < 3)
  simp only [List.map_cons, List.map_nil, after_lineArrived 0 (h _)]
  decide +kernel

theorem witness_DiscardedLineIsCountedUnderItsReason :
    let s := withBlock 0x11 [1, 2, 3, 4, 5] (assemblingFrame [])
    let aborted := s.withLst { s.lst with abortedFsn := some 40 }
    let f := lineFieldsOf (lineBytes 40 1 0 16)
    let late := withRecords [{ openFrame with kCur := 2 }] State.reset
    let closed := withRecords [{ openFrame with data := .closed }] State.reset
    BlockArrived 0x11 [1, 2, 3, 4, 5] [] (sense [] s).lrx ∧
    BlockArrived 0x11 (lineBytes 40 1 0 16) [] (sense [] (lineArrived 1 late)).lrx ∧
    ([1, 2, 3, 4, 5] : List Byte).length < 6 ∧
    6 ≤ (lineBytes 40 1 0 16).length ∧ aborted.lst.abortedFsn = some f.fsn ∧ s.lst.abortedFsn ≠ some f.fsn ∧
    record (lineFieldsOf (lineBytes 41 1 0 16)).fsn s = none ∧ record f.fsn s = some openFrame ∧
    openFrame.data ≠ .pending ∧ openFrame.dataLines ≤ (lineFieldsOf (lineBytes 40 2 0 16)).k ∧
    f.k < openFrame.dataLines ∧
    ¬ ((lineFieldsOf (lineBytes 40 1 0 15)).count = min 1024 (openFrame.width - 1024 * 0)) ∧
    ¬ ((lineFieldsOf (lineBytes 40 1 1 16)).segment < segmentsExpected openFrame.width) ∧
    (f.segment < segmentsExpected openFrame.width ∧ f.count = min 1024 (openFrame.width - 1024 * f.segment) ∧
      (lineBytes 40 1 0 16).length = 6 + 9 * ((f.count + 1) / 2)) ∧
    (record f.fsn late).map FrameRecord.kCur = some 2 ∧ (record f.fsn closed).map FrameRecord.data = some .closed :=
  ⟨blockArrived_withBlock (by decide) (by decide), blockArrived_withBlock (by decide) (by decide), by decide +kernel⟩

theorem witness_DiscardedLineIsCountedUnderItsReason_pending :
    let f := fun k n => lineFieldsOf (lineBytes 40 k 0 n)
    let s := fun k => lineArrived k (pendingFrame [{ begun with fsn := some 39 }])
    BlockArrived 0x11 (lineBytes 40 2 0 16) [] (sense [] (s 2)).lrx ∧
    record (f 2 16).fsn (s 2) = some (aRecord 40 .waiting .pending) ∧ (aRecord 40 .waiting .pending).data = .pending ∧
    (s 2).fq.records = [aRecord 39 .waiting .opened] ++ aRecord 40 .waiting .pending :: [aRecord 41 .waiting .pending] ∧
    ((s 2).fq.records.map FrameRecord.fsn).Nodup ∧ (aRecord 40 .waiting .pending).dataLines ≤ (f 2 16).k ∧
    (f 1 16).k < (aRecord 40 .waiting .pending).dataLines ∧ (f 1 15).count ≠ min 1024 (16 - 1024 * 0) :=
  ⟨blockArrived_withBlock (by decide) (by decide), by decide +kernel⟩

theorem test_a_discarded_line_opens_its_pending_record :
    let t := after (.line [] (lineBytes 40 2 0 16)) (lineArrived 2 (pendingFrame [{ begun with fsn := some 39 }]))
    t.fq.records.map (fun q => (q.fsn, q.data, q.excess, q.partialLines)) =
      [(39, .closed, false, 1), (40, .opened, true, 0), (41, .pending, false, 0)] ∧
    t.lst.discards.excess = 1 ∧ t.lrx.streamDispatched = 1 := by
  rw [after_lineArrived 2 (by decide)]
  decide +kernel

theorem witness_FendClosesTheOpenDataSide :
    let s := withBlock 0x12 [40] (assemblingFrame [begun])
    BlockArrived 0x12 [40] [] (sense [] s).lrx ∧
    BlockArrived 0x12 [] [] (sense [] (withBlock 0x12 [] State.reset)).lrx ∧ ([] : List Byte).length ≠ 1 ∧
    (40 : Byte).toNat = 40 ∧
    (s.withLst { s.lst with abortedFsn := some 40 }).lst.abortedFsn = some 40 ∧ s.lst.abortedFsn ≠ some 40 ∧
    record 40 s = some openFrame ∧ openFrame.data = .opened ∧ (∀ q ∈ s.fq.records, q.fsn = 40 → q = openFrame) ∧
    (∀ q ∈ s.fq.records, q.fsn ≠ 41) ∧
    (record 40 (withRecords four State.reset)).map FrameRecord.data ≠ some .opened :=
  ⟨blockArrived_withBlock (by decide) (by decide), blockArrived_withBlock (by decide) (by decide), by decide +kernel⟩

theorem witness_BlocksWithoutAnAnswerAndUnknownCodes :
    let short := State.reset.withCpr { State.reset.cpr with fifo := [⟨.command, [0x00, 0x07]⟩] }
    short.cpr.executing = none ∧ (withReplies 23 short).rtx.entries.length ≤ 23 ∧
    OutEntry.reserved ∉ short.rtx.entries ∧ ([0x00, 0x07] : List Byte).length < 3 ∧
    (withTable [0x00] State.reset).cpr.fifo = [⟨.table, [0x00]⟩] ∧ State.reset.pst.session = none ∧
    (withCommand 0x05 [] State.reset).cpr.fifo = [⟨.command, [0x00, 0x07, 0x05]⟩] ∧
    (0x05 : Byte).toNat ∉ commandCodes := by decide +kernel

theorem witness_BlocksWithoutAnAnswerAndUnknownCodes_arity :
    CommandReady 7 0x18 [1, 2, 3, 4, 5] (withCommand 0x18 [1, 2, 3, 4, 5] State.reset) ∧
    ([1, 2, 3, 4, 5] : List Byte).length ≠ 6 ∧
    CommandReady 7 0x48 [1] (withCommand 0x48 [1] State.reset) ∧ ([1] : List Byte) ≠ [] :=
  ⟨commandReady_withCommand (by decide) rfl (by decide) (by decide), by decide,
   commandReady_withCommand (by decide) rfl (by decide) (by decide), by decide⟩

theorem witness_IdentifyGivesCodeRevisionCauseAndCapacities :
    CommandReady 7 0x01 [] (withCommand 0x01 [] State.reset) ∧
    CommandReady 7 0x04 [] (withCommand 0x04 [] State.reset) :=
  ⟨commandReady_withCommand (by decide) rfl (by decide) (by decide),
   commandReady_withCommand (by decide) rfl (by decide) (by decide)⟩

theorem witness_ReadingCommandsAnswerAndChangeNothing :
    CommandReady 7 0x02 [] (withCommand 0x02 [] (withReplies 23 State.reset)) ∧
    CommandReady 7 0x12 [1] (withCommand 0x12 [1] State.reset) ∧
    CommandReady 7 0x12 [2] (withCommand 0x12 [2] State.reset) ∧ 2 ≤ (2 : Byte).toNat :=
  ⟨commandReady_withCommand (by decide) rfl (by decide) (by decide +kernel),
   commandReady_withCommand (by decide) rfl (by decide) (by decide),
   commandReady_withCommand (by decide) rfl (by decide) (by decide), by decide⟩

/-- The state whose CPR copy has the link SYNCED, which the server has not been told. -/
def untold (s : State) : State := s.withCpr { s.cpr with current := linkUp }

/-- The state with a NOTICE of BLANK that waits for an entry. -/
def noticeWaiting : State :=
  State.reset.withCpr { State.reset.cpr with waitingNotice := some { aNotice with changed := 2 } }

theorem witness_ClearStatusAcknowledgesAndSendsAgain_merged :
    let ready := fun (s : State) => withCommand 0x03 [0x00, 0x01] (untold s)
    let differ := fun (s : State) => condSet fun c => condIn (BitVec.ofNat 13 1) c &&
      condDiffers (after .clearStatus (ready s)).cpr.current (after .clearStatus (ready s)).cpr.reported c
    CommandReady 7 0x03 [0x00, 0x01] (ready (noticePending true)) ∧ CommandReady 7 0x03 [0x00, 0x01] (ready noticeWaiting) ∧
    differ (noticePending true) ≠ 0 ∧ differ noticeWaiting ≠ 0 ∧
    (unsent (ready noticeWaiting).rtx).any isNotice = false ∧
    (ready noticeWaiting).cpr.waitingNotice = some { aNotice with changed := 2 } ∧
    (ready (noticePending true)).rtx.entries =
      [.block (.reply ⟨false, 7, 1, .ok, none, []⟩)] ++ [] ++ .block (.notice aNotice) :: [] ∧
    (ready (noticePending true)).rtx.sending = true :=
  ⟨commandReady_withCommand (by decide) rfl (by decide) (by decide),
   commandReady_withCommand (by decide) rfl (by decide) (by decide), by decide +kernel⟩

theorem test_clear_status_merges_with_a_notice_not_yet_sent :
    let clear := fun (s : State) => after .clearStatus (withCommand 0x03 [0x00, 0x01] (untold s))
    let changed := fun (s : State) =>
      s.rtx.entries.map fun e => match e with | .block (.notice n) => some n.changed | _ => none
    changed (clear (noticePending true)) = [none, some 1, none] ∧
    changed (clear noticeWaiting) = [none] ∧ (clear noticeWaiting).cpr.waitingNotice.map Notice.changed = some 3 := by
  decide +kernel

theorem witness_ClearStatusAcknowledgesAndSendsAgain :
    CommandReady 7 0x03 [0x20, 0x00] (withCommand 0x03 [0x20, 0x00] State.reset) ∧
    CommandReady 7 0x03 [0x1F, 0xFF] (withCommand 0x03 [0x1F, 0xFF] (hearing [] State.reset)) ∧
    8192 ≤ (0x20 : Byte).toNat * 256 + (0x00 : Byte).toNat ∧ (0x1F : Byte).toNat * 256 + (0xFF : Byte).toNat < 8192 ∧
    (unsent State.reset.rtx).any isNotice = false ∧ State.reset.cpr.waitingNotice = none :=
  ⟨commandReady_withCommand (by decide) rfl (by decide) (by decide),
   commandReady_withCommand (by decide) rfl (by decide) (by decide), by decide, by decide, by decide, rfl⟩

theorem witness_ResetUnitEmptiesTheFrameMachinery :
    CommandReady 7 0x04 [1] (withCommand 0x04 [1] State.reset) ∧ ([1] : List Byte) ≠ [] ∧
    CommandReady 7 0x04 [] (withCommand 0x04 [] (measuring { aMeasurement 0 [] with count := .all 63 } State.reset)) ∧
    State.reset.rtx.sending = false ∧
    (let s := after .transmissionBegins (withReplies 1 State.reset)
     s.rtx.sending = true ∧ s.rtx.entries ≠ []) ∧
    (State.reset.ftc.stage ≠ .stepping ∧ (after .lineComplete writing).ftc.stage = .stepping) :=
  ⟨commandReady_withCommand (by decide) rfl (by decide) (by decide), by decide,
   commandReady_withCommand (by decide) rfl (by decide) (by decide), rfl, by decide +kernel, by decide,
   by decide +kernel⟩

theorem witness_ResetUnitEmptiesTheFrameMachinery_slots :
    let loads := State.reset.withPst { State.reset.pst with session := some ⟨0, .cdt, 0, 0, 0, 0⟩ }
    let compiles := withSlot { aSlot with state := .compiling, compileEnds := some (counts 9) } State.reset
    (∃ ses, loads.pst.session = some ses ∧ ses.slot = 0) ∧ (profile loads 0).kinds = ⟨false, false, false⟩ ∧
    ({ aSlot with kinds := ⟨true, false, true⟩ } : ProfileSlot).kinds ≠ ⟨true, true, true⟩ ∧
    (profile (measuring (aMeasurement 0 []) State.reset) 0).prior = some .valid ∧
    (profile (after .resetUnit (withCommand 0x04 [] compiles)) 0).state = .compiling ∧
    (profile (after .resetUnit (withCommand 0x04 [] loads)) 0).state = .empty :=
  ⟨⟨_, rfl, rfl⟩, by decide +kernel⟩

theorem witness_TableOpenOpensASessionOrRefuses :
    CommandReady 7 0x10 [0, 0, 0x2F, 0xFF] (withCommand 0x10 [0, 0, 0x2F, 0xFF] State.reset) ∧
    slotOf (2 : Byte).toNat = none ∧ tableKindOf (3 : Byte).toNat = none ∧ slotOf (0 : Byte).toNat = some 0 ∧
    slotOf (1 : Byte).toNat = some 1 ∧ tableKindOf (0 : Byte).toNat = some .cdt ∧
    tableKindOf (1 : Byte).toNat = some .sct ∧ tableKindOf (2 : Byte).toNat = some .plt ∧
    (profile (measuring (aMeasurement 0 []) State.reset) 0).state = .measuring ∧
    (0 < (profile (withSlot { aSlot with pins := 1 } State.reset) 0).pins) ∧
    (profile State.reset 0).state ≠ .compiling ∧ (profile State.reset 0).state ≠ .measuring ∧
    (profile State.reset 0).pins = 0 :=
  ⟨commandReady_withCommand (by decide) rfl (by decide) (by decide), by decide +kernel⟩

/-- A session of a kind open on slot 0 with the load pointer at `p`. -/
def loading (kind : TableKind) (p : Nat) (s : State) : State :=
  (s.withPst { s.pst with session := some ⟨0, kind, 0, 0, 0, 0⟩ }).withCpr { s.cpr with loadPointer := some p }

theorem witness_TableBlockWritesItsEntries :
    let whole := withTable (0x00 :: [5000, 5001].flatMap be2 ++ []) (loading .cdt 12287 State.reset)
    let odd := withTable (0x00 :: [5000, 5001].flatMap be2 ++ [0xFF]) (loading .cdt 12288 State.reset)
    let es : List (Byte × Nat × Nat) := [(3, 0, 0), (2, 5001, 4095), (0, 5000, 4096)]
    let bytes := es.flatMap (fun e => e.1 :: be2 e.2.1 ++ be2 e.2.2) ++ [0, 1, 2, 3]
    whole.cpr.executing = none ∧ whole.rtx.entries.length ≤ 23 ∧ OutEntry.reserved ∉ whole.rtx.entries ∧
    whole.pst.session = some ⟨0, .cdt, 0, 0, 0, 0⟩ ∧ whole.cpr.loadPointer = some 12287 ∧
    (∀ d ∈ [5000, 5001], d < 65536) ∧ ([0xFF] : List Byte).length < 2 ∧
    whole.cpr.fifo = [⟨.table, 0x00 :: [5000, 5001].flatMap be2 ++ []⟩] ∧
    odd.cpr.fifo = [⟨.table, 0x00 :: [5000, 5001].flatMap be2 ++ [0xFF]⟩] ∧ odd.cpr.loadPointer = some 12288 ∧
    (12288 : Nat) ≤ 12288 ∧ tableWf 0 (profile whole 0).cdt = true ∧
    (∀ e ∈ es, e.2.1 < 65536 ∧ e.2.2 < 65536) ∧ ([0, 1, 2, 3] : List Byte).length < 5 ∧
    (withTable (0x01 :: bytes) (loading .sct 191 State.reset)).cpr.fifo = [⟨.table, 0x01 :: bytes⟩] ∧
    (withTable (0x02 :: bytes) (loading .plt 47 State.reset)).cpr.fifo = [⟨.table, 0x02 :: bytes⟩] ∧
    (loading .sct 191 State.reset).cpr.loadPointer = some 191 ∧
    (loading .plt 47 State.reset).pst.session = some ⟨0, .plt, 0, 0, 0, 0⟩ := by decide +kernel

theorem witness_TableCloseValidatesAndSetsTheSlot :
    let sct := loading .sct 0 (withSlot aSlot State.reset)
    let short := [⟨300, 1000⟩] ++ ([] : List CurvePoint)
    let level := [⟨300, 1000⟩, ⟨300, 1450⟩] ++ ([] : List CurvePoint)
    let rungs := fun (last : Nat) => [⟨3900, 2600⟩, ⟨3420, 2300⟩, ⟨2980, last⟩] ++ ([] : List Rung)
    CommandReady 7 0x11 [] (withCommand 0x11 [] State.reset) ∧ State.reset.pst.session = none ∧
    CommandReady 7 0x11 [] (withCommand 0x11 [] sct) ∧ sct.pst.session = some ⟨0, .sct, 0, 0, 0, 0⟩ ∧
    (2 ≤ redCurve.length ∧ redCurve.length ≤ 64) ∧
    (redCurve.Pairwise fun x y => x.density < y.density ∧ x.exposure < y.exposure) ∧
    (2 ≤ redLadder.length ∧ redLadder.length ≤ 16) ∧ ¬ (2 ≤ short.length ∧ short.length ≤ 64) ∧
    ¬ (level.Pairwise fun x y => x.density < y.density ∧ x.exposure < y.exposure) ∧
    ((rungs 2300)[1]? = some ⟨3420, 2300⟩ ∧ (rungs 2300)[2]? = some ⟨2980, 2300⟩ ∧ (2300 : Nat) ≤ 2300) ∧
    ((rungs 1999)[1]? = some ⟨3420, 2300⟩ ∧ (rungs 1999)[2]? = some ⟨2980, 1999⟩ ∧ 300 < 2300 - 1999) ∧
    (rungs 1999)[0]? = some ⟨3900, 2600⟩ ∧ 2300 < 2600 ∧ 2600 - 2300 ≤ 300 :=
  ⟨commandReady_withCommand (by decide) rfl (by decide) (by decide), rfl,
   commandReady_withCommand (by decide) rfl (by decide) (by decide), rfl, by decide⟩

theorem witness_CompileEndFillsTheCompiledTables :
    let s := (withSlot { aSlot with state := .compiling, compileEnds := some (counts 200000) } State.reset).withClock
      (counts 200000)
    (profile s 0).state = .compiling ∧ (profile s 0).compileEnds = some (counts 200000) ∧
    counts 200000 ≤ (reach (counts 200000) (sense [] (unlinked s))).clock ∧
    (redCurve.Pairwise fun x y => x.density < y.density ∧ x.exposure < y.exposure) ∧
    redCurve.head? = some ⟨300, 1000⟩ ∧ redCurve[0]? = some ⟨300, 1000⟩ ∧ redCurve[1]? = some ⟨900, 1450⟩ ∧
    redCurve.getLast? = some ⟨2100, 2120⟩ ∧ (300 < 301 ∧ 301 ≤ 900) ∧ (4095 : Nat) < 4096 := by decide +kernel

theorem witness_DutyIsTheExactPowerRoundedHalfUp :
    chooseRung 1791 0 redLadder = some (2, ⟨2980, 2060⟩) ∧ 2 + 1 < redLadder.length ∧
    (∀ g ∈ redLadder, g.power ≤ 4095) ∧ onLadder redLadder 1790 false = .pulse 3 2560 255 false false false := by
  decide +kernel

theorem witness_RungIsTheWeakestThatReachesTheExposure :
    redLadder[4]? = some ⟨2170, 1520⟩ ∧ 4 + 1 = redLadder.length ∧ redLadder[3]? = some ⟨2560, 1790⟩ ∧
    1520 < 1521 ∧ 1521 ≤ 1790 ∧ redLadder = ⟨3900, 2600⟩ :: redLadder.tail ∧ 2600 < 2601 := by decide

theorem witness_RungIsTheWeakestThatReachesTheExposure_spacing (i : Nat) (x y : Rung) (hx : redLadder[i]? = some x)
    (hy : redLadder[i + 1]? = some y) : y.power < x.power ∧ x.power - y.power ≤ 300 := by
  have hi : i < 5 := by
    by_contra h
    have : redLadder.length ≤ i := by simp [redLadder]; omega
    simp [List.getElem?_eq_none this] at hx
  interval_cases i <;> simp [redLadder] at hx hy <;> subst hx hy <;> simp

theorem witness_AbortFrameRemovesTheRecordItNames :
    CommandReady 7 0x20 [40] (withCommand 0x20 [40] writing) ∧ (writing.fq.records.map FrameRecord.fsn).Nodup ∧
    record 41 writing = none ∧ (record 40 writing).map FrameRecord.exposure = some .exposing ∧
    (record 1 (withRecords [aRecord 1 .finished .closed] State.reset)).map FrameRecord.exposure = some .finished ∧
    (record 1 (withRecords four State.reset)).map FrameRecord.exposure = some .waiting :=
  ⟨commandReady_withCommand (by decide) (by decide +kernel) (by decide +kernel) (by decide +kernel), by decide +kernel⟩

/-- A FINISHED record with its report. -/
def finished : FrameRecord := { aRecord 40 .finished .closed with report := some (aReport 40) }

theorem witness_FlushAndReleaseClearHeld :
    CommandReady 7 0x21 [] (withCommand 0x21 [] writing) ∧ CommandReady 7 0x22 [] (withCommand 0x22 [] State.reset) ∧
    (∃ r, writing.fq.records[0]? = some r ∧ r.exposure = .exposing) ∧ writing.pfm.line ≠ none ∧
    (∀ r ∈ (withRecords [finished] State.reset).fq.records, r.exposure ≠ .exposing) ∧
    finished.exposure = .finished ∧ finished.report = some (aReport 40) ∧
    (State.reset.withFq { State.reset.fq with backlog := [aReport 1] }).fq.backlog ≠ [] ∧
    writing.fq.backlog = [] ∧ (∀ r ∈ writing.fq.records.tail, r.exposure ≠ .finished) ∧
    (writing.lst.slots.length = 40 ∧ 10 ≤ freeSlots writing.lst ∧ writing.lst.hold = false) :=
  ⟨commandReady_withCommand (by decide) (by decide +kernel) (by decide +kernel) (by decide +kernel),
   commandReady_withCommand (by decide) rfl (by decide) (by decide), ⟨_, rfl, by decide +kernel⟩, by decide +kernel,
   by decide, rfl, rfl, by decide, by decide +kernel⟩

theorem test_flush_reports_in_order :
    let s := withRecords [finished, aRecord 41 .exposing .opened, aRecord 42 .waiting .pending] State.reset
    let t := after .flushQueue (withCommand 0x21 [] s)
    let told := fun (r : Report) => (r.fsn, r.abortCause)
    t.rtx.entries.filterMap (fun e => match e with | .block (.report r) => some (told r) | _ => none) =
      [(40, none), (41, some .flush), (42, some .flush)] ∧
    t.fq.backlog = [] ∧ t.fq.records = [] ∧ t.fq.held = false := by decide +kernel

theorem test_flush_fills_the_free_entries_first :
    let rs := [1, 2, 3, 4].map fun n => aRecord n .waiting .opened
    let s := (withRecords rs (withReplies 23 State.reset)).withFtc { State.reset.ftc with origin := some (.frame 3) }
    let t := after .flushQueue (withCommand 0x21 [] s)
    let u := after .flushQueue (withCommand 0x21 [] (s.withFq { s.fq with backlog := [aReport 9] }))
    t.rtx.entries.length = 28 ∧ t.fq.backlog = [] ∧ t.lst.abortedFsn = some 4 ∧ t.ftc.origin = some .command ∧
    u.rtx.entries.length = 24 ∧ u.fq.backlog.map Report.fsn = [9, 1, 2, 3, 4] := by decide +kernel

theorem witness_PositioningBeginsFromTheTransportsState :
    let r := aRecord 40 .waiting .opened
    let s := running (withRecords [r, aRecord 41 .waiting .closed] State.reset)
    s.fq.records = r :: [aRecord 41 .waiting .closed] ∧ r.exposure = .waiting ∧ s.fq.held = false ∧
    (∀ q ∈ [aRecord 41 .waiting .closed], q.fsn ≠ r.fsn) ∧ s.ftc.state = .registered ∧ r.advance = 0 ∧
    0 < ({ r with advance := 1 } : FrameRecord).advance ∧ State.reset.ftc.state = .unregistered ∧
    (after .advance (withCommand 0x40 [3] s)).ftc.state = .advancing ∧
    (after (.pinDisengaged (levelIn (.pin false))) (running State.reset)).ftc.state = .fault := by decide +kernel

/-- `aRecord 40` homed and ready to expose. -/
def homed : FrameRecord := { aRecord 40 .positioning .opened with step := some .homed, setup := none }

theorem witness_ExposureStartLatchesTheSetup :
    let s := running (withRecords [homed, aRecord 41 .waiting .closed] State.reset)
    let lit := s.withPfm { s.pfm with
      request := some { newRequest s with shots := ⟨some ⟨3000, .capture⟩, none, none⟩, opened := true }
      lanes := { s.pfm.lanes with red := { s.pfm.lanes.red with pulseOpen := true, amplitude := 3000 } } }
    s.fq.records = homed :: [aRecord 41 .waiting .closed] ∧ homed.exposure = .positioning ∧
    homed.step = some .homed ∧ (∀ q ∈ [aRecord 41 .waiting .closed], q.fsn ≠ homed.fsn) ∧
    s.lmn.measurement = none ∧ s.pfm.request = none ∧ homed.startNotice = false ∧
    ({ homed with startNotice := true } : FrameRecord).startNotice = true ∧
    monitorPulseOpen lit.pfm .red = true ∧ monitorPulseOpen lit.pfm .green = false := by decide +kernel

theorem witness_OutboundQueueSendsAndGrants :
    (withReplies 1 State.reset).rtx.sending = false ∧ (withReplies 1 State.reset).rtx.entries.length = 1 ∧
    (enqueue (.notice aNotice) State.reset).rtx.entries = .block (.notice aNotice) :: [] ∧
    (let s := after .transmissionBegins (withReplies 1 State.reset)
     s.rtx.sending = true ∧ s.rtx.entries.length = 1 ∧ (sense [(700, .sent)] s).sen.sent = true ∧
     (sense [(700, .quiet)] s).sen.sent = false) ∧
    (withReplies 31 State.reset).rtx.entries.length < 32 ∧ State.reset.fq.backlog = [] ∧
    (∀ q ∈ State.reset.fq.records, q.exposure ≠ .finished) ∧
    (State.reset.withCpr { State.reset.cpr with waitingNotice := some aNotice }).cpr.waitingNotice = some aNotice ∧
    (State.reset.withFq { State.reset.fq with backlog := [aReport 1] }).fq.backlog = aReport 1 :: [] ∧
    (withRecords [finished] State.reset).fq.records = finished :: [] ∧ finished.exposure = .finished ∧
    finished.report = some (aReport 40) ∧ finished.behind = 0 ∧
    0 < ({ finished with behind := 1 } : FrameRecord).behind := by decide +kernel

theorem test_the_backlogs_oldest_goes_before_a_finished_record :
    let s := withRecords [{ finished with behind := 1 }] (State.reset.withFq { State.reset.fq with backlog := [aReport 1] })
    let t := after .reportGranted s
    t.fq.backlog = [] ∧ t.fq.records.map FrameRecord.behind = [0] ∧
    (t.rtx.entries.filterMap fun e => match e with | .block (.report r) => some r.fsn | _ => none) = [1] := by
  decide +kernel

theorem witness_PolygonStartAcquiresOrAnswersAlreadyRunning :
    CommandReady 7 0x28 [] (withCommand 0x28 [] State.reset) ∧ State.reset.stu.polygon = .stopped ∧
    State.reset.stu.lastPeriod < 4294967296 ∧
    CommandReady 7 0x28 [] (withCommand 0x28 [] writable) ∧ writable.stu.polygon ≠ .stopped ∧
    (let s := State.reset.withStu { State.reset.stu with polygon := .acquiring, runCount := 64 }
     s.stu.polygon = .acquiring ∧ 64 ≤ s.stu.runCount) :=
  ⟨commandReady_withCommand (by decide) rfl (by decide) (by decide), rfl, by decide,
   commandReady_withCommand (by decide) rfl (by decide) (by decide), by decide +kernel⟩

theorem witness_PolygonStopIsRefusedOrStopsWithoutTrigger :
    CommandReady 7 0x29 [] (withCommand 0x29 [] writable) ∧
    (∃ r rest, (withCommand 0x29 [] writable).fq.records = r :: rest ∧ r.exposure = .exposing) ∧
    CommandReady 7 0x29 [] (withCommand 0x29 [] (running State.reset)) ∧ (running State.reset).fq.records = [] ∧
    (running State.reset).lmn.measurement = none ∧ (running State.reset).stu.polygon ≠ .stopped ∧
    CommandReady 7 0x29 [] (withCommand 0x29 [] State.reset) :=
  ⟨commandReady_withCommand (by decide) rfl (by decide) (by decide), ⟨_, _, rfl, rfl⟩,
   commandReady_withCommand (by decide) rfl (by decide) (by decide), rfl, rfl, by decide,
   commandReady_withCommand (by decide) rfl (by decide) (by decide)⟩

theorem witness_SettingCommandsWriteTheLimitedValues :
    CommandReady 7 0x2A (be4 19999 ++ be2 60001) (withCommand 0x2A (be4 19999 ++ be2 60001) State.reset) ∧
    State.reset.stu.polygon = .stopped ∧ writable.stu.polygon ≠ .stopped ∧
    CommandReady 7 0x2B (be1 9 ++ beSigned (-129) ++ beSigned 40 ++ beSigned (-41) ++ beSigned 0)
      (withCommand 0x2B (be1 9 ++ beSigned (-129) ++ beSigned 40 ++ beSigned (-41) ++ beSigned 0) State.reset) ∧
    CommandReady 7 0x2C (be1 15 ++ be1 16 ++ be1 255) (withCommand 0x2C (be1 15 ++ be1 16 ++ be1 255) State.reset) ∧
    CommandReady 7 0x30 (be1 63 ++ be1 64 ++ be1 0 ++ be2 1024 ++ be1 33)
      (withCommand 0x30 (be1 63 ++ be1 64 ++ be1 0 ++ be2 1024 ++ be1 33) State.reset) ∧
    CommandReady 7 0x49 (be1 63) (withCommand 0x49 (be1 63) State.reset) ∧
    CommandReady 7 0x49 (be1 64) (withCommand 0x49 (be1 64) State.reset) :=
  ⟨commandReady_withCommand (by decide) rfl (by decide) (by decide), rfl, by decide +kernel,
   commandReady_withCommand (by decide) rfl (by decide) (by decide),
   commandReady_withCommand (by decide) rfl (by decide) (by decide),
   commandReady_withCommand (by decide) rfl (by decide) (by decide),
   commandReady_withCommand (by decide) rfl (by decide) (by decide),
   commandReady_withCommand (by decide) rfl (by decide) (by decide)⟩

/-- `writable` 100 ms after a line start at 1 ms, just as a facet period begins. -/
def waited : State :=
  (writable.withStu { writable.stu with lineWait := some 1, periodStart := some (counts 10100000) }).withClock
    (counts 10100000)

/-- A film run with 2 perforations to go, begun at 0 ms, now at 20 ms. -/
def filming : State :=
  ((unlinked State.reset).withClock (counts 2000000)).withFtc { State.reset.ftc with
    state := .advancing, phase := some .filmRun, origin := some .command, counter := 2, perfTimer := some 0,
    motor := true, stage := .idle, position := some 0 }

/-- A SETTLING transport whose settle timer began at 0, now at 20 ms, with the oldest record at a positioning step
and the filtered pin state engaged or not. -/
def settling (engaged : Bool) (p : PositionStep) (perfs : Nat) : State :=
  ((withRecords [{ aRecord 40 .positioning .opened with step := some p, advance := perfs }]
      ((unlinked State.reset).withClock (counts 2000000))).withFtc
    { filming.ftc with state := .settling, phase := none, counter := 0, perfTimer := none, motor := false,
                       origin := some (if p = .advancing then .frame 40 else .command),
                       settleTimer := some 0, pinsIn := true }).withSen
    { State.reset.sen with pin := ⟨engaged, engaged, 0, false⟩ }

theorem witness_TimerLimitsReachRunningTimers :
    CommandReady 7 0x2D (be2 100) (withCommand 0x2D (be2 100) waited) ∧ waited.stu.lineWait = some 1 ∧
    1 + max 100 (min 60000 100) ≤ timebase waited ∧ timebase waited < 1 + max 100 (min 60000 101) ∧
    (∃ r rest, waited.fq.records = r :: rest ∧ r.exposure = .exposing ∧ ∀ q ∈ rest, q.fsn ≠ r.fsn) ∧
    CommandReady 7 0x42 (be2 5 ++ be2 20) (withCommand 0x42 (be2 5 ++ be2 20) filming) ∧
    filming.ftc.perfTimer = some 0 ∧ 0 + max 20 (min 2000 20) ≤ timebase filming ∧
    timebase filming < 0 + max 20 (min 2000 21) ∧ filming.ftc.state = .advancing ∧
    filming.ftc.phase = some .filmRun ∧ 0 < filming.ftc.counter :=
  ⟨commandReady_withCommand (by decide) (by decide +kernel) (by decide +kernel) (by decide +kernel),
   by decide +kernel, by decide +kernel, by decide +kernel, ⟨_, _, rfl, by decide +kernel, by simp⟩,
   commandReady_withCommand (by decide) (by decide +kernel) (by decide +kernel) (by decide +kernel), by decide +kernel⟩

theorem witness_TimerLimitsReachRunningTimers_expiry :
    let s := (writable.withStu { writable.stu with lineWait := some 0, lineWaitLimit := 1 })
    s.stu.lineWait = some 0 ∧ counts 100000 ≤ (reach (counts 100000) s).clock ∧
    (∃ r rest, s.fq.records = r :: rest ∧ r.exposure = .exposing ∧ ∀ q ∈ rest, q.fsn ≠ r.fsn) ∧
    (reach (counts 100000) (sense (edgeIn 99990) s)).clock < counts 100000 ∧
    (after .lineWaitExpiry s).fq.records = [] :=
  ⟨rfl, by decide +kernel, ⟨_, _, rfl, rfl, by simp⟩, by decide +kernel⟩

theorem witness_TimerLimitsReachRunningTimers_settling :
    let s := settling true .advancing 2
    CommandReady 7 0x42 (be2 20 ++ be2 20) (withCommand 0x42 (be2 20 ++ be2 20) s) ∧ s.ftc.state = .settling ∧
    s.ftc.settleTimer = some 0 ∧ 0 + max 5 (min 500 20) ≤ timebase s ∧ timebase s < 0 + max 5 (min 500 21) ∧
    s.sen.pin.level = true ∧ (settling false .advancing 2).sen.pin.level = false ∧
    (∃ r, s.fq.records = [r] ∧ r.exposure = .positioning ∧ r.step = some .advancing ∧
      s.ftc.origin = some (.frame r.fsn)) ∧
    (∀ r ∈ (withRecords [] s).fq.records, r.exposure ≠ .positioning) :=
  ⟨commandReady_withCommand (by decide) rfl (by decide) (by decide), rfl, rfl, by decide, by decide, rfl, rfl,
   ⟨_, rfl, rfl, rfl, rfl⟩, by decide⟩

theorem witness_AcceptedEdgeSlipsForTheFirstReason :
    let s := writable
    let r := aRecord 40 .exposing .opened
    ((sense (edgeIn 50000) s).sen.beam.fired = true ∧ (sense (edgeIn 50000) s).clock = counts 50000) ∧
    ((sense (edgeIn 99500) s).sen.beam.fired = true ∧ (sense (edgeIn 99500) s).clock = counts 99500) ∧
    s.sen.beam.fired = false ∧
    (s.stu.lastEdge = some 0 ∧ (counts 50000 - 0) / 1310720 ≤ s.stu.nominal / 2) ∧
    (∀ last, s.stu.lastEdge = some last → s.stu.nominal / 2 < (counts 99500 - last) / 1310720) ∧
    s.stu.polygon = .locked ∧
    s.stu.periodStart = some 0 ∧ s.stu.periodOverrun = false ∧
    (((99500 - 0 : Nat) : Int) - s.stu.nominal).natAbs * 200 ≤ s.stu.nominal ∧
    s.fq.records = r :: [] ∧ r.exposure = .exposing ∧ r.setup = some aSetup ∧
    s.stu.scanCounter < r.height + max aSetup.vertical.red (max aSetup.vertical.green aSetup.vertical.blue) ∧
    s.ftc.state = .registered ∧ s.stu.facetSync = .synced ∧ min 12 (s.stu.edgeRun + 1) < 12 ∧
    min 12 (11 + 1) = 12 ∧ s.blc.latch = false ∧ State.reset.blc.latch = true ∧
    (∀ c : Colour, (s.lmn.channels.get c).state = .ready) ∧ (State.reset.lmn.channels.get .red).state ≠ .ready ∧
    ¬ (writing.pfm.line = none) ∧ (∃ c : Colour, laneSource r 1 s c = none) ∧
    (s.lmn.measurement = none ∧ ∃ c : Colour, (s.lmn.channels.get c).state = .ready) ∧
    isExposing (withRecords [] s) = false ∧ r.height + 0 ≤ (s.withStu { s.stu with scanCounter := 2 }).stu.scanCounter ∧
    (after (.pinDisengaged (levelIn (.pin false))) (withRecords [] s)).ftc.state ≠ .registered ∧
    (newRequest s).bound = none ∧ s.pfm.request = none ∧ windowEnds 0 s = 0 + 4928 * 256 * s.stu.nominal :=
  ⟨by decide +kernel, by decide +kernel, rfl, by decide +kernel, by intro e h; cases h; decide +kernel, rfl,
   rfl, rfl, by decide +kernel, rfl, rfl, rfl, by decide +kernel, rfl, rfl, by decide, rfl, rfl, rfl, by intro c; cases c <;> rfl,
   by decide, by decide +kernel, ⟨.red, by decide +kernel⟩, ⟨rfl, .red, rfl⟩, by decide +kernel, by decide +kernel,
   by decide +kernel, rfl, rfl, by decide +kernel⟩

theorem witness_LineIsWrittenWhenEveryConditionHolds :
    let s := writable
    let r := aRecord 40 .exposing .opened
    (sense (edgeIn 100500) s).sen.beam.fired = true ∧ (sense (edgeIn 100500) s).clock = counts 100500 ∧
    (∀ last, s.stu.lastEdge = some last → s.stu.nominal / 2 < (counts 100500 - last) / 1310720) ∧
    (((100500 - 0 : Nat) : Int) - s.stu.nominal).natAbs * 200 ≤ s.stu.nominal ∧
    s.stu.edgeRun < 11 ∧ (∃ f, s.stu.facets[s.stu.edgeRun]? = some f) ∧ s.pfm.line = none ∧
    s.ftc.stage ≠ .homing ∧ s.ftc.stage ≠ .stepping ∧ (∀ c : Colour, laneSource r s.stu.scanCounter s c ≠ none) :=
  ⟨by decide +kernel, by decide +kernel, by intro e h; cases h; decide +kernel, by decide +kernel, by decide,
   ⟨_, rfl⟩, rfl, by decide, by decide, by intro c; cases c <;> decide +kernel⟩

/-- `writable` with a compiled table for every colour, so that the line's first pixel has a rung. -/
def lit : State :=
  withSlot { aSlot with compiled := .all (tableOf .base 4096 fun cv => if cv = 0x121 then .level 1613 false else .base) }
    writable

theorem witness_LineIsWrittenWhenEveryConditionHolds_rung :
    let t := after (.beamDetectEdge (edgeIn 100500)) lit
    resultAt t .red 16 0 = .pulse 3 2560 170 false false false ∧ t.pfm.lanes.red.rung = some (3, 2560) ∧
    t.pfm.lanes.red.amplitude = 2560 ∧ t.stu.lineWait = some 1 ∧
    (let e := writable.withStu { writable.stu with edgeRun := 10 }
     e.stu.edgeRun < 11 ∧ e.stu.facets[e.stu.edgeRun]? = none) := by decide +kernel

/-- `lit` with every pixel a density clip, its line being written. -/
def clipping : State :=
  after (.beamDetectEdge (edgeIn 100000 ++ [(3000, .quiet)]))
    (withSlot { aSlot with compiled := .all (tableOf .base 4096 fun cv => if cv = 0x121 then .level 1613 true else .base) }
      writable)

theorem test_a_stopped_line_counts_the_positions_begun :
    let blanked := after (.interlockOpen [(901, .interlock false), (900, .quiet)])
      (clipping.withSen { clipping.sen with coming := [] })
    let cut := after .abortFrame (withCommand 0x20 [40]
      (sense [(1300, .quiet)] (clipping.withSen { clipping.sen with coming := [] })))
    let clips := fun (s : State) => s.rtx.entries.filterMap fun e => match e with
      | .block (.report r) => some r.counts.red.densityClips | _ => none
    clipping.clock = counts 100000 ∧ blanked.clock = counts 101300 ∧ blanked.pfm.line = none ∧
    blanked.lanes.red.densityClips = 3 ∧ clips blanked = [3] ∧ cut.clock = counts 101300 ∧ clips cut = [3] ∧
    (sense [] clipping).clock = counts 100000 + 36608 * 100000 ∧
    (sense [] clipping).lanes.red.densityClips = 16 := by decide +kernel

theorem witness_LineIsWrittenWhenEveryConditionHolds_dark : ∀ p < 16 + 63, resultAt writing .red 16 p = .dark := by
  decide +kernel

theorem witness_SourceOfALaneFollowsTheSourceRule :
    let r := aRecord 40 .exposing .opened
    r.regions = [] ++ ⟨.image, 2⟩ :: [] ∧ 1 < 2 ∧ writable.lst.slots[0]? = some (aLine 0) ∧
    (aLine 0).state ≠ .free ∧ (aLine 0).fsn = some r.fsn ∧ (aLine 0).k = some 0 ∧
    (∀ sl ∈ writable.lst.slots, ¬ (sl.state ≠ .free ∧ sl.fsn = some r.fsn ∧ sl.k = some 1)) ∧
    (∀ sl ∈ writable.lst.slots.tail, ¬ (sl.state ≠ .free ∧ sl.fsn = some r.fsn ∧ sl.k = some 0)) := by
  decide +kernel

theorem witness_LineCompletionMarksHoldsAndSteps :
    let last := writing.withPfm { writing.pfm with line := some { aPlacedLine with scan := 1 } }
    (∃ r rest, writing.pfm.line = some aPlacedLine ∧ writing.fq.records = r :: rest ∧ r.exposure = .exposing ∧
      r.setup = some aSetup ∧ (∀ q ∈ rest, q.fsn ≠ r.fsn) ∧ aPlacedLine.scan + 1 < r.height ∧
      last.pfm.line = some { aPlacedLine with scan := 1 } ∧
      r.height + max aSetup.vertical.red (max aSetup.vertical.green aSetup.vertical.blue) ≤ 1 + 1) ∧
    (let due := aPlacedLine.edge + (aPlacedLine.leadIn + (aPlacedLine.width + 63) * 256) * writing.stu.nominal
     due ≤ (reach due writing).clock ∧ due ≤ (reach due last).clock) ∧
    writing.ftc.stage = .idle ∧ (withReplies 31 last).rtx.entries.length < 32 ∧ last.fq.backlog = [] ∧
    32 ≤ (withReplies 32 last).rtx.entries.length ∧
    (last.withFq { last.fq with backlog := [aReport 1] }).fq.backlog ≠ [] :=
  ⟨⟨_, _, by decide +kernel, rfl, by decide +kernel, by decide +kernel, by simp, by decide +kernel, rfl,
    by decide +kernel⟩, by decide +kernel⟩

/-- An ACQUIRING polygon, one period short of lock, whose acquire timer and period began at 0. -/
def acquiring : State :=
  (unlinked State.reset).withStu { State.reset.stu with
    polygon := .acquiring, motor := true, runCount := 63, acquireTimer := some 0, periodStart := some 0,
    lastEdge := some 0 }

/-- A request for red at 3000, bound to the edge at 0, whose window is open. -/
def openRequest (s : State) : State :=
  s.withPfm { s.pfm with
    request := some { newRequest s with shots := ⟨some ⟨3000, .drift⟩, none, none⟩, bound := some 0, opened := true }
    lanes := { s.pfm.lanes with red := { s.pfm.lanes.red with pulseOpen := true, amplitude := 3000 } } }

theorem test_an_early_edge_marks_the_request_and_cuts_its_pulse :
    let s := withRecords [] writable
    let held := s.withPfm { s.pfm with request := some (newRequest s) }
    let t := after (.beamDetectEdge (edgeIn 100000)) held
    let u := after (.beamDetectEdge (edgeIn 50001)) (openRequest acquiring)
    let v := after (.beamDetectEdge (edgeIn 50001)) (openRequest s)
    t.pfm.request.map MonitorRequest.bound = some (some (counts 100000)) ∧ t.stu.polygon = .locked ∧
    t.lmn.retraceCount = 1 ∧ [u, v].map (fun x => (x.stu.polygon, x.pfm.lanes.red.pulseOpen,
      x.pfm.lanes.red.amplitude, x.pfm.request.map MonitorRequest.sawEdge)) =
        List.replicate 2 (.acquiring, false, 0, some true) := by decide +kernel

theorem witness_PolygonLocksAndLosesLock :
    acquiring.stu.polygon = .acquiring ∧ acquiring.stu.periodStart = some 0 ∧ acquiring.stu.periodOverrun = false ∧
    acquiring.stu.acquireTimer = some 0 ∧ counts 100101 ≤ (reach (counts 100101) acquiring).clock ∧
    counts 100501 ≤ (reach (counts 100501) writable).clock ∧
    (reach (counts 100101) (sense (edgeIn 50001) acquiring)).clock < counts 100101 ∧
    (reach (counts 100501) (sense (edgeIn 50001) writable)).clock < counts 100501 ∧
    (let seeks := acquiring.withStu { acquiring.stu with periodStart := none }
     counts 2000000000 ≤ (reach (counts 2000000000) seeks).clock) ∧ writable.stu.polygon = .locked ∧
     writable.stu.periodStart = some 0 ∧
    writable.stu.periodOverrun = false ∧ writable.blc.mask.getLsbD 1 = true ∧
    (let s := after (.beamDetectEdge (edgeIn 100100)) acquiring
     s.stu.polygon = .acquiring ∧ 64 ≤ s.stu.runCount) ∧
    State.reset.sen.beam.shown = false ∧
    (let b := (sense [(0, .beam true), (3, .quiet)] State.reset).sen.beam
     b.shown = true ∧ b.fired = false ∧ b.run < 4 ∧ 4 ≤ b.run + 1) := by decide +kernel

theorem witness_PolygonLocksAndLosesLock_edge :
    ((sense (edgeIn 50001) acquiring).sen.beam.fired = true ∧ (sense (edgeIn 50001) acquiring).clock = counts 50001) ∧
    (∀ last, acquiring.stu.lastEdge = some last → acquiring.stu.nominal / 2 < (counts 50001 - last) / 1310720) ∧
    State.reset.stu.polygon = .stopped ∧ acquiring.stu.polygon = .acquiring ∧
    (acquiring.withStu { acquiring.stu with periodStart := none }).stu.periodStart = none ∧
    ((((100100 - 0 : Nat) : Int) - 100000).natAbs * 1000 ≤ 100000 ∧
      ¬ (((100101 - 0 : Nat) : Int) - 100000).natAbs * 1000 ≤ 100000) ∧
    ((sense (edgeIn 100501) writable).sen.beam.fired = true ∧
     (sense (edgeIn 100501) writable).clock = counts 100501) ∧ writable.stu.polygon = .locked ∧
    writable.stu.nominal < (((100501 - 0 : Nat) : Int) - writable.stu.nominal).natAbs * 200 ∧
    ¬ (writable.stu.nominal < (((100500 - 0 : Nat) : Int) - writable.stu.nominal).natAbs * 200) :=
  ⟨by decide +kernel, by intro e h; cases h; decide, rfl, rfl, rfl, by decide, by decide +kernel, rfl,
   by decide +kernel, by decide +kernel⟩

/-- LOCKED with a record EXPOSING, POLYGON being no blank source. -/
def unguarded : State := writable.withBlc { writable.blc with mask := 0 }

/-- ACQUIRING with a record EXPOSING, 63 periods in the acquire band behind it. -/
def relocking : State := unguarded.withStu { unguarded.stu with polygon := .acquiring, runCount := 63 }

theorem witness_AcceptedEdgeSlipsForTheFirstReason_unlocked :
    let r := aRecord 40 .exposing .opened
    ((sense (edgeIn 100100) relocking).sen.beam.fired = true ∧
      (sense (edgeIn 100501) unguarded).sen.beam.fired = true ∧
      (sense (edgeIn 100501) unguarded).clock = counts 100501) ∧
    (∀ last, relocking.stu.lastEdge = some last → relocking.stu.nominal / 2 < (counts 100100 - last) / 1310720) ∧
    relocking.stu.polygon = .acquiring ∧ relocking.stu.periodStart = some 0 ∧ unguarded.stu.polygon = .locked ∧
    unguarded.stu.periodStart = some 0 ∧ unguarded.stu.periodOverrun = false ∧
    unguarded.stu.nominal < (((100501 : Nat) : Int) - unguarded.stu.nominal).natAbs * 200 ∧
    unguarded.blc.mask.getLsbD 1 = false ∧
    (relocking.withStu { relocking.stu with periodStart := none }).stu.periodStart = none ∧
    State.reset.stu.polygon = .stopped ∧ relocking.fq.records = [r] ∧ unguarded.fq.records = [r] ∧
    r.exposure = .exposing ∧ r.setup = some aSetup ∧ relocking.stu.scanCounter < r.height ∧
    relocking.ftc.state = .registered :=
  ⟨by decide +kernel, by intro e h; cases h; decide, rfl, rfl, rfl, rfl, rfl, by decide, by decide, rfl, rfl, rfl, rfl,
   rfl, rfl, by decide, rfl⟩

theorem test_an_exposing_frames_facets_slip_until_lock_returns :
    let lost := after (.beamDetectEdge (edgeIn 100501)) unguarded
    let gained := after (.beamDetectEdge (edgeIn 100100)) relocking
    let locked := after .polygonLock gained
    (lost.stu.polygon, lost.stu.slips.sync, lost.fq.held) = (.acquiring, 1, false) ∧
    (gained.stu.runCount, gained.stu.slips.sync, gained.pfm.line.isSome) = (64, 1, false) ∧
    (after (.beamDetectEdge (edgeIn 100000)) locked).pfm.line.isSome = true := by decide +kernel

theorem test_an_overrun_waits_for_the_edge_before_it :
    let s := sense (edgeIn 100100) acquiring
    let waits := after .periodOverrun s
    let t := after (.beamDetectEdge []) waits
    waits.clock = counts 100100 ∧ waits.stu.runCount = 63 ∧ waits.stu.periodOverrun = false ∧ t.stu.runCount = 64 ∧
    (after .periodOverrun acquiring).stu.runCount = 0 := by decide +kernel

theorem test_no_edge_before_the_entry_starts_a_line :
    let s := running (withRecords [homed] State.reset)
    let waits := after (.beamDetectEdge (edgeIn 100)) s
    let t := after (.beamDetectEdge []) (after .exposureStart waits)
    waits.clock = 0 ∧ dueStep waits = some .exposureStart ∧ t.clock = counts 100 ∧ t.stu.glitches = 1 ∧
    t.fq.records.map FrameRecord.exposure = [.exposing] := by decide +kernel

theorem witness_IndexGainsAndLosesFacetSync :
    let seeking := acquiring.withStu { acquiring.stu with goodRevs := 2 }
    let full := writable.withStu { writable.stu with edgeRun := 10 }
    let past := writable.withStu { writable.stu with edgeRun := 12 }
    let first := acquiring
    (sense indexIn first).sen.index.fired = true ∧ (sense indexIn full).sen.index.fired = true ∧
    first.sen.index.fired = false ∧ first.stu.facetSync = .hunt ∧
    first.stu.polygon ≠ .stopped ∧
    seeking.stu.facetSync = .hunt ∧ seeking.stu.polygon ≠ .stopped ∧ 2 ≤ seeking.stu.goodRevs ∧
    State.reset.stu.facetSync = .hunt ∧ State.reset.stu.polygon = .stopped ∧
    full.stu.facetSync = .synced ∧ full.stu.edgeRun = 10 ∧ writable.stu.edgeRun ≠ 10 ∧
    past.stu.facetSync = .synced ∧ 12 ≤ past.stu.edgeRun ∧ past.blc.mask.getLsbD 2 = true := by decide +kernel

theorem witness_SetTrimWritesThePendingTrims :
    let args := beSigned (-501) ++ beSigned 500 ++ beSigned 32767
    CommandReady 7 0x18 args (withCommand 0x18 args writable) ∧
    CommandReady 7 0x04 [] (withCommand 0x04 [] State.reset) ∧
    (withRecords [homed] State.reset).fq.records = homed :: [] ∧ homed.exposure = .positioning ∧
    homed.step = some .homed ∧ State.reset.lmn.measurement = none :=
  ⟨commandReady_withCommand (by decide) rfl (by decide) (by decide),
   commandReady_withCommand (by decide) rfl (by decide) (by decide), rfl, rfl, rfl, rfl⟩

theorem witness_RungGuardShiftsOrCutsAChangedRungsPulse :
    let fresh := PulseLane.initial
    let onThree := { PulseLane.initial with rung := some (3, 2560) }
    fresh.rung.map Prod.fst ≠ some 3 ∧ onThree.rung.map Prod.fst = some 3 ∧ (16 : Nat) ≤ 16 ∧ (255 : Nat) ≤ 255 ∧
    (32 : Nat) ≤ (256 - 192) / 2 ∧ (256 - 193) / 2 < 32 ∧ 32 + 224 - 1 ≤ 255 ∧ 255 < 32 + 225 - 1 ∧
    (firstRung writing .red 16).isSome = (firstRung writing .red 16).isSome := by decide +kernel

/-- A drift request for red bound to the edge at 0, its window open or not. -/
def aRequest (isOpen : Bool) : MonitorRequest :=
  { shots := ⟨some ⟨3000, .drift⟩, none, none⟩, bound := some 0, opened := isOpen, sawBlank := false, sawLine := false,
    sawEdge := false, brought := none }

/-- The state with a monitor request held. -/
def requested (isOpen : Bool) : State :=
  (running State.reset).withPfm { State.reset.pfm with request := some (aRequest isOpen) }

theorem witness_MonitorWindowFiresTheRequestAndUsesItsReadings :
    (requested false).pfm.request = some (aRequest false) ∧ (aRequest false).bound = some 0 ∧
    (counts 91250 ≤ (reach (counts 91250) (requested false)).clock ∧
     counts 96250 ≤ (reach (counts 96250) (requested true)).clock ∧
      (reach (counts 91250) (sense (edgeIn 50) (requested false))).clock < counts 91250 ∧
      (reach (counts 96250) (sense (edgeIn 50) (requested true))).clock < counts 96250) ∧
    (aRequest false).opened = false ∧ (requested false).blc.latch = false ∧ (requested false).pfm.line = none ∧
    (aRequest false).sawEdge = false ∧ writing.pfm.line ≠ none ∧
    (requested true).pfm.request = some (aRequest true) ∧ (aRequest true).opened = true ∧
    ((aRequest true).sawBlank = false ∧ (aRequest true).sawLine = false ∧ (aRequest true).sawEdge = false) ∧
    ((requested true).lmn.channels.get .red).state = .ready ∧ ((requested true).lmn.channels.get .red).accCount < 16 ∧
    (measuring { aMeasurement 0 [] with count := .all 63 } (requested true)).lmn.measurement =
      some { aMeasurement 0 [] with count := .all 63 } := by decide +kernel

theorem test_averages_brought_early_are_kept_for_the_windows_end :
    let s := sense (edgeIn 50) (requested true)
    let kept := after (.monitorWindowEnd (.all 7)) s
    let t := after (.monitorWindowEnd (.all 9)) (after (.beamDetectEdge []) kept)
    kept.pfm.request.map MonitorRequest.brought = some (some (.all 7)) ∧ kept.clock = counts 50 ∧
    (counts 96250, some (.monitorWindowEnd (.all 7))) ∈ waiting kept ∧ t.clock = counts 96250 ∧ t.pfm.request = none ∧
    t.lmn.channels.red.accSum = 2000 - 7 := by decide +kernel

theorem test_time_does_not_pass_a_windows_end :
    let s := after .monitorWindowStart (requested false)
    let waits := after (.interlockOpen [(3700, .quiet), (0, .interlock false), (2000, .quiet)]) s
    let t := after (.interlockOpen []) (after (.monitorWindowEnd (.all 1990)) waits)
    let u := after (.interlockOpen [(0, .interlock false), (400, .quiet)]) s
    let v := after (.monitorWindowEnd (.all 0)) u
    s.clock = counts 91250 ∧ waits.clock = counts 95300 ∧ waits.blc.latch = true ∧ t.lmn.channels.red.accCount = 0 ∧
    u.pfm.lanes.red.pulseOpen = false ∧ v.clock = counts 96250 ∧ v.lmn.channels.red.accCount = 0 := by decide +kernel

theorem test_a_windows_end_lies_between_two_counts :
    let s := (requested true).withStu { (requested true).stu with nominal := 100001 }
    let early := after (.beamDetectEdge (edgeIn 96250)) s
    let waits := after (.beamDetectEdge (edgeIn 96251)) s
    let t := after (.monitorWindowEnd (.all 1990)) waits
    early.clock = counts 96250 ∧ early.pfm.request.map MonitorRequest.sawEdge = some true ∧
    waits.clock = 4928 * 256 * 100001 ∧ waits.pfm.request.map MonitorRequest.sawEdge = some false ∧
    waits.pfm.lanes.red.pulseOpen = s.pfm.lanes.red.pulseOpen ∧ t.lmn.channels.red.accCount = 1 ∧
    (counts 96251, some (.beamDetectEdge [])) ∈ waiting t := by decide +kernel

theorem witness_MonitorWindowFiresTheRequestAndUsesItsReadings_needed :
    let m := measuring { aMeasurement 4 [] with count := ⟨63, 64, 0⟩ } (running State.reset)
    let s := running State.reset
    let drifting := s.withLmn { s.lmn with retraceCount := 7 }
    let capturing := fun n => withRed { redChannel with state := .capturing, captureCount := n } s
    (∃ g, ((profile m 0).plt.get .red).rungs[4]? = some g) ∧ 63 < 64 ∧ (64 ≤ 64) ∧
    ((profile m 0).plt.get .red).rungs.length ≤ 5 ∧
    s.lmn.measurement = none ∧ (drifting.lmn.channels.get .red).state = .ready ∧ drifting.lmn.retraceCount = 7 ∧
    s.lmn.retraceCount ≠ 7 ∧ s.stu.polygon = .locked ∧ s.blc.latch = false ∧
    ((capturing 63).lmn.channels.get .red).captureCount < 64 ∧ isExposing (capturing 63) = false ∧
    ¬ (((capturing 64).lmn.channels.get .red).captureCount < 64) :=
  ⟨⟨_, rfl⟩, by decide, by decide, by decide, rfl, rfl, rfl, by decide, rfl, rfl, by decide, rfl, by decide⟩

theorem witness_LaserOnAndOffChangeTheNamedChannels :
    CommandReady 7 0x38 [7] (withCommand 0x38 [7] State.reset) ∧
    CommandReady 7 0x39 [7] (withCommand 0x39 [7] State.reset) ∧
    ((7 : Byte) ≠ 0 ∧ (7 : Byte).toNat < 8) ∧ ¬ ((8 : Byte) ≠ 0 ∧ (8 : Byte).toNat < 8) ∧
    ¬ ((0 : Byte) ≠ 0 ∧ (0 : Byte).toNat < 8) ∧ isExposing writable = true ∧ isExposing State.reset = false ∧
    State.reset.lmn.measurement = none :=
  ⟨commandReady_withCommand (by decide) rfl (by decide) (by decide),
   commandReady_withCommand (by decide) rfl (by decide) (by decide), by decide +kernel⟩

/-- The argument bytes of a SET LASER SETUP at and beyond the ends of its ranges. -/
def setupArgs : List Byte :=
  be2 4095 ++ be2 4096 ++ be2 0 ++ beSigned (-2049) ++ beSigned 2047 ++ beSigned 0 ++ be2 0 ++ be2 251

theorem witness_LaserSetupTakesEffectAtOnce :
    CommandReady 7 0x3A setupArgs (withCommand 0x3A setupArgs State.reset) ∧
    (let s := withRed { redChannel with lastMean := some 251 } (running State.reset)
     s.blc.mask.getLsbD 4 = true ∧ s.lmn.channels.red.beyond = false ∧ 250 < (251 : Int).natAbs ∧
     s.blc.latch = false) ∧ ¬ (250 < (250 : Int).natAbs) ∧
    (let s := (withRed { redChannel with state := .warming, warmStart := some 0 } State.reset).withClock (counts 100000000)
     s.lmn.channels.red.state = .warming ∧ 0 + 1000 * 1 ≤ timebase s ∧ ¬ 0 + 1000 * 2 ≤ timebase s) :=
  ⟨commandReady_withCommand (by decide) rfl (by decide) (by decide), by decide +kernel, by decide, by decide +kernel⟩

theorem witness_WarmUpEndsInCaptureAndCaptureInReady :
    let warm := withRed { redChannel with state := .warming, warmStart := some 0 } State.reset
    let full := withRed { redChannel with state := .capturing, captureCount := 64 }
    counts 12000000000 ≤ (reach (counts 12000000000) (unlinked warm)).clock ∧
    (reach (counts 12000000000) warm).clock < counts 12000000000 ∧
    (warm.lmn.channels.get .red).state = .warming ∧ (warm.lmn.channels.get .red).warmStart = some 0 ∧
    ((full State.reset).lmn.channels.get .red).state = .capturing ∧
    64 ≤ ((full State.reset).lmn.channels.get .red).captureCount ∧ isExposing (full State.reset) = false ∧
    isExposing (full writable) = true := by decide +kernel

theorem witness_DriftUpdateMovesTheCorrectionByAtMostTwo :
    let s := withRed { redChannel with accCount := 16, accSum := 1984 } State.reset
    16 ≤ (s.lmn.channels.get .red).accCount ∧ (s.lmn.channels.get .red).beyond = false ∧
    s.lmn.driftLimit < (124 : Int).natAbs ∧ s.blc.mask.getLsbD 4 = true ∧ s.blc.latch = true ∧
    (running s).blc.latch = false ∧
    -250 ≤ (s.lmn.channels.get .red).drift ∧ (s.lmn.channels.get .red).drift ≤ 250 := by decide +kernel

theorem witness_MeasureLadderChecksInOrderAndBegins :
    let s := running (withSlot aSlot State.reset)
    CommandReady 7 0x3B [0] (withCommand 0x3B [0] s) ∧ (0 : Byte).toNat = (0 : Fin 2).val ∧ 2 ≤ (2 : Byte).toNat ∧
    (isExposing writable = true ∧ isExposing s = false ∧ s.lmn.measurement = none) ∧ (profile s 0).pins = 0 ∧
    0 < (profile (running (withSlot { aSlot with pins := 1 } State.reset)) 0).pins ∧
    (profile s 0).state = .valid ∧ (profile s 0).kinds.plt = true ∧ (profile s 1).state = .empty ∧
    (∀ c : Colour, (s.lmn.channels.get c).state = .ready) ∧ s.stu.polygon = .locked ∧ s.blc.latch = false :=
  ⟨commandReady_withCommand (by decide) rfl (by decide) (by decide), rfl, by decide, by decide +kernel, rfl, by decide,
   rfl, rfl, rfl, by intro c; cases c <;> rfl, rfl, rfl⟩

theorem witness_MeasurementStepFormsPowersAndTheLastOneValidates :
    let m := aMeasurement 4 [2600, 2330, 2060, 1790]
    let s := measuring m State.reset
    s.lmn.measurement = some m ∧
    (∀ c : Colour, 4 < ((profile s 0).plt.get c).rungs.length → 64 ≤ m.count.get c) ∧
    (profile s 0).prior = some .valid ∧ 3 + 1 < ((profile s 0).plt.get .red).rungs.length ∧
    ((profile s 0).plt.get .red).rungs.length ≤ 4 + 1 ∧
    (∀ i p q, [2600, 2330, 2060, 1790, 1520][i]? = some p → [2600, 2330, 2060, 1790, 1520][i + 1]? = some q →
      q < p ∧ p - q ≤ 300) ∧
    ([2600, 2300, 2300][1]? = some 2300 ∧ [2600, 2300, 2300][1 + 1]? = some 2300 ∧ ¬ (2300 < 2300 ∧ 2300 - 2300 ≤ 300)) ∧
    ([2600, 2300, 1999][1]? = some 2300 ∧ [2600, 2300, 1999][1 + 1]? = some 1999 ∧
      ¬ (1999 < 2300 ∧ 2300 - 1999 ≤ 300)) :=
  ⟨rfl, by intro c _; cases c <;> decide +kernel, rfl, by decide +kernel, by decide +kernel,
   by intro i p q hp hq
      have hi : i < 5 := by
        by_contra h
        simp [List.getElem?_eq_none (show [2600, 2330, 2060, 1790, 1520].length ≤ i by simp; omega)] at hp
      interval_cases i <;> simp at hp hq <;> subst hp hq <;> simp,
   by decide, by decide⟩

theorem witness_AdvanceBeginsAndClearLeavesAFault :
    CommandReady 7 0x40 [16] (withCommand 0x40 [16] State.reset) ∧
    CommandReady 7 0x41 [] (withCommand 0x41 [] (after (.pinDisengaged (levelIn (.pin false))) (running State.reset))) ∧
    (after (.pinDisengaged (levelIn (.pin false))) (running State.reset)).ftc.state = .fault ∧ State.reset.ftc.state ≠ .fault ∧
    filming.ftc.state = .advancing ∧
    (∃ r ∈ writable.fq.records, r.exposure = .positioning ∨ r.exposure = .exposing) ∧ State.reset.fq.records = [] :=
  ⟨commandReady_withCommand (by decide) rfl (by decide) (by decide),
   commandReady_withCommand (by decide) (by decide +kernel) (by decide +kernel) (by decide +kernel), by decide +kernel,
   by decide, rfl, ⟨_, List.mem_cons_self, Or.inr rfl⟩, rfl⟩

theorem witness_FilmRunCountsSettlesAndRegisters :
    (filming.ftc.state = .advancing ∧ filming.ftc.phase = some .filmRun ∧ 0 < filming.ftc.counter ∧
      filming.ftc.perfTimer = some 0) ∧
    ((sense (levelIn (.perf true)) filming).sen.perf.fired = true ∧
      (sense (levelIn (.perf true)) filming).clock = counts 2000400) ∧ filming.sen.perf.fired = false ∧
    (let f := (after (.perfEdge (levelIn (.perf true) ++ levelIn (.perf false) ++ levelIn (.perf true))) filming).ftc
     f.state = .advancing ∧ f.phase = some .filmRun ∧ f.counter = 1) ∧
    (let s := filming.withFtc { filming.ftc with counter := 0 }
     s.ftc.state = .advancing ∧ s.ftc.phase = some .filmRun ∧ s.ftc.counter = 0) ∧
    (State.reset.ftc.state ≠ .advancing ∧ filming.sen.perf.shown = filming.sen.perf.level ∧
      (sense [(0, .perf true)] filming).sen.perf.shown ≠ (sense [(0, .perf true)] filming).sen.perf.level) := by
  decide +kernel

theorem witness_FilmRunCountsSettlesAndRegisters_settling :
    let s := settling true .advancing 2
    s.ftc.state = .settling ∧ s.ftc.settleTimer = some 0 ∧ s.ftc.origin = some (.frame 40) ∧
    (reach (counts 6000000) s).sen.pin.level = true ∧ (0 + s.ftc.settleInterval) * 131072000000 = counts 6000000 ∧
    counts 6000000 ≤ (reach (counts 6000000) s).clock ∧
    counts 6000000 ≤ (reach (counts 6000000) (settling false .advancing 2)).clock ∧
    counts 6000000 ≤ (reach (counts 6000000) (settling true .waitTransport 2)).clock ∧
    (reach (counts 6000000) (sense (levelIn (.pin false)) s)).clock < counts 6000000 ∧
    (∃ r, s.fq.records = [r] ∧ r.exposure = .positioning ∧ r.step = some .advancing ∧ r.fsn = 40) ∧
    (reach (counts 6000000) (settling false .advancing 2)).sen.pin.level = false ∧
    (∃ r, (settling true .waitTransport 2).fq.records = [r] ∧ r.exposure = .positioning ∧
      r.step = some .waitTransport ∧ 0 < r.advance) ∧
    (∃ r, (settling true .waitTransport 0).fq.records = [r] ∧ r.step = some .waitTransport ∧ r.advance = 0) ∧
    s.cpr.current.transport ≠ .registered ∧ condIn s.cpr.latch .transport = false ∧
    (unsent s.rtx).any isNotice = false ∧ s.cpr.waitingNotice = none ∧ s.rtx.entries.length < 32 ∧
    (∀ r ∈ (withRecords [] s).fq.records, r.exposure ≠ .positioning) ∧
    (s.ftc.stage ≠ .stepping ∧ (after .lineComplete writing).ftc.stage = .stepping) :=
  ⟨rfl, rfl, rfl, by decide +kernel, rfl, by decide +kernel, by decide +kernel, by decide +kernel,
   by decide +kernel, ⟨_, rfl, rfl, rfl, rfl⟩, by decide +kernel, ⟨_, rfl, rfl, rfl, by decide⟩,
   ⟨_, rfl, rfl, rfl⟩, by decide, by decide, by decide, rfl, by decide, by decide, by decide +kernel⟩

theorem test_pins_may_bounce_before_the_settle_end :
    let bounce : Trace := levelIn (.pin false) ++ levelIn (.pin true)
    let waits := after (.settleEnd bounce) (settling true .advancing 2)
    let s := after (.settleEnd []) (after (.pinDisengaged []) waits)
    waits.clock = counts 2000400 ∧ waits.ftc.state = .settling ∧ s.ftc.state = .registered ∧
    s.clock = counts 6000000 := by
  decide +kernel

theorem test_the_settle_end_reads_the_pins_of_its_moment :
    let lost := after (.settleEnd ((4000000, .quiet) :: levelIn (.pin false))) (settling true .advancing 2)
    let came := after (.stepDone ((4000000, .quiet) :: levelIn (.pin true))) (settling false .advancing 2)
    lost.clock = counts 6000000 ∧ lost.ftc.state = .registered ∧
    (after (.pinDisengaged []) lost).clock = counts 6000400 ∧
    (after (.pinDisengaged []) lost).ftc.faultCause = some .pin ∧ came.clock = counts 6000000 ∧
    (after (.settleEnd []) came).ftc.faultCause = some .pin := by decide +kernel

theorem witness_IdlePartTakesItsOwnStepOrATick_held :
    let edge := sense (edgeIn 50001) acquiring
    let bounced := sense (levelIn (.pin false)) (settling true .advancing 2)
    ((counts 100101, some .periodOverrun) ∈ waiting edge ∧ (reach (counts 100101) edge).clock < counts 100101) ∧
    ((counts 6000000, some (.settleEnd [])) ∈ waiting bounced ∧
     (reach (counts 6000000) bounced).clock = counts 2000400) ∧
    (let s := requested true
     dueStep (reach (counts 96251) s) = none ∧ (counts 96250, none) ∈ waiting s ∧
     (reach (counts 96251) s).clock = counts 96250) := by decide +kernel

theorem witness_FilmRunCountsSettlesAndRegisters_stall :
    counts 20000000 ≤ (reach (counts 20000000) filming).clock ∧
    (reach (counts 20000000) (sense (levelIn (.perf true)) filming)).clock < counts 20000000 := by decide +kernel

theorem test_a_perf_edge_after_the_timeout_waits_for_the_stall :
    let waits := after (.perfEdge [(18000000, .perf true), (500, .quiet)]) filming
    let t := after (.perfEdge []) (after .perfTimeout waits)
    waits.clock = counts 20000000 ∧ waits.ftc.counter = 2 ∧ dueStep waits = some .perfTimeout ∧ t.ftc.state = .fault ∧
    t.ftc.faultCause = some .stall ∧ t.clock = counts 20000400 ∧ t.sen.perf.fired = false := by decide +kernel

theorem witness_FilmRunCountsSettlesAndRegisters_pins :
    ((sense (levelIn (.pin false)) writable).sen.pin.fired = true ∧ writable.ftc.state = .registered) ∧
    ((sense (levelIn (.pin false)) (settling true .advancing 2)).sen.pin.fired = true ∧
      (settling true .advancing 2).ftc.state ≠ .registered) ∧ writable.sen.pin.fired = false := by decide +kernel

theorem test_registered_is_reported_before_the_next_advance :
    (after (.settleEnd []) (settling true .waitTransport 2)).ftc.state = .advancing ∧
    ((after (.settleEnd []) (settling true .waitTransport 2)).rtx.entries.filterMap fun e =>
      match e with | .block (.notice n) => some n.values.transport | _ => none) = [.registered] := by decide +kernel

/-- The stage in an operation that began at 0, with a homing waiting or not. -/
def moving (st : StageState) (wait : Bool) : State :=
  (withRecords [{ aRecord 40 .positioning .opened with step := some .homing }] (unlinked State.reset)).withFtc
    { State.reset.ftc with state := .registered, stage := st, position := some 3215, stageTimer := some 0,
                           homeWaiting := wait }

theorem witness_StageHomesStepsAndFails :
    (sense (levelIn (.stageDone true)) (moving .homing false)).sen.stageDone.fired = true ∧
    (sense (levelIn (.stageDone true)) (moving .stepping true)).sen.stageDone.fired = true ∧
    (moving .homing false).sen.stageDone.fired = false ∧
    (moving .homing false).ftc.stage = .homing ∧ (moving .stepping true).ftc.stage = .stepping ∧
    (moving .stepping true).ftc.position = some 3215 ∧ (moving .stepping true).ftc.homeWaiting = true ∧
    (moving .stepping false).ftc.homeWaiting = false ∧ (moving .homing false).ftc.stageTimer = some 0 ∧
    (∃ r, (moving .homing false).fq.records = [r] ∧ r.exposure = .positioning ∧ r.step = some .homing) ∧
    (moving .homing false).ftc.state ≠ .fault ∧ State.reset.ftc.stage = .unknown ∧
    (after .advance (withCommand 0x40 [3] (running State.reset))).ftc.phase = some .stageReturn ∧
    (counts 50000000 ≤ (reach (counts 50000000) (moving .homing false)).clock ∧
      counts 2000000 ≤ (reach (counts 2000000) (moving .stepping true)).clock ∧
      (reach (counts 2000000) (sense (levelIn (.stageDone true)) (moving .stepping true))).clock < counts 2000000) :=
  ⟨by decide +kernel, by decide +kernel, rfl, rfl, rfl, rfl, rfl, rfl, rfl, ⟨_, rfl, rfl, rfl⟩, by decide, rfl,
   by decide +kernel, by decide +kernel⟩

theorem test_a_done_after_the_timer_does_not_end_the_operation :
    let home := after (.homingDone [(50000000, .stageDone true), (400, .quiet)]) (moving .homing false)
    let step := after (.stepDone [(2000000, .stageDone true), (400, .quiet)]) (moving .stepping false)
    let ends := fun (s : State) => after (.homingDone []) (after .stageTimeout s)
    home.ftc.stage = .homing ∧ step.ftc.stage = .stepping ∧
    [home, step].map (fun s => ((ends s).ftc.stage, (ends s).ftc.position, (ends s).ftc.faultCause)) =
      List.replicate 2 (.unknown, none, some .stage) := by decide +kernel

theorem test_a_done_of_the_timeouts_moment_may_come_on_either_side :
    let both := sense [(1999600, .stageDone true), (400, .quiet)] (moving .stepping true)
    let expiry := after (.homingDone []) (after .stageTimeout both)
    let done := after (.stepDone []) both
    both.clock = counts 2000000 ∧ both.sen.stageDone.fired = true ∧ expiry.ftc.stage = .homing ∧
    expiry.ftc.state = .fault ∧ done.ftc.stage = .homing ∧ done.ftc.position = some 3215 ∧
    done.ftc.state = .registered ∧ (after .stageTimeout both).sen.stageDone.fired = false := by
  decide +kernel

theorem witness_OnlyBlankResumeClearsTheLatch :
    CommandReady 7 0x48 [] (withCommand 0x48 [] State.reset) ∧ State.reset.blc.latch = true ∧
    State.reset.blc.interlockOpen = true ∧
    (let s := (running State.reset).withBlc { (running State.reset).blc with latch := true, causes := 0x40 }
     s.blc.latch = true ∧ s.blc.interlockOpen = false ∧ s.stu.polygon = .locked ∧ s.stu.facetSync = .synced ∧
     s.ftc.state ≠ .fault ∧ s.lmn.channels.red.beyond = false ∧ s.lmn.channels.green.beyond = false ∧
     s.lmn.channels.blue.beyond = false ∧
     (after .blankResume (withCommand 0x48 [] s)).blc.latch = false) ∧
    (running State.reset).blc.latch = false :=
  ⟨commandReady_withCommand (by decide) rfl (by decide) (by decide), rfl, rfl, by decide +kernel, rfl⟩

theorem witness_InterlockOpeningBlanksTheFilm :
    (let e := sense (levelIn (.interlock false)) writing
     e.clock = counts 100400 ∧ e.sen.interlock.fired = true ∧ e.sen.interlock.level = false) ∧
    (let e := sense (levelIn (.interlock true)) State.reset
     e.sen.interlock.fired = true ∧ e.sen.interlock.level = true) ∧
    (let f := (sense [(0, .interlock true), (399, .quiet)] State.reset).sen.interlock
     f.fired = false ∧ f.run < 4 ∧ f.shown ≠ f.level) ∧
    writing.blc.latch = false ∧ State.reset.blc.latch = true ∧
    (∃ r rest, writing.fq.records = r :: rest ∧ r.exposure = .exposing ∧ ∀ q ∈ rest, q.fsn ≠ r.fsn) ∧
    isExposing (running State.reset) = false :=
  ⟨by decide +kernel, by decide +kernel, by decide +kernel, by decide +kernel, rfl,
   ⟨_, _, rfl, by decide +kernel, by simp⟩, by decide +kernel⟩

theorem witness_EveryStepKeepsTheBlankDark :
    BlankIsDark State.reset ∧ BlankLawful State.reset ∧
    ∃ t, step (State.reset.withPending [.identify]) = .next t :=
  ⟨fun _ => ⟨fun c => by cases c <;> decide, rfl⟩, by unfold BlankLawful; decide, _, rfl⟩

theorem witness_EveryStepKeepsTheStatusCopyCurrent : CopyIsCurrent State.reset := by
  unfold CopyIsCurrent
  decide +kernel

theorem witness_EveryStepKeepsQueuesAndFramesBounded :
    QueuesBounded State.reset ∧ FramesBounded State.reset := by
  unfold QueuesBounded FramesBounded
  decide

theorem witness_EveryStepKeepsTheStoresLawful :
    HoldFollows State.reset ∧ TablesWf State.reset ∧ DriftInRange State.reset := by
  refine ⟨by unfold HoldFollows; decide +kernel, ⟨⟨rfl, ?_⟩, ⟨rfl, ?_⟩, ?_⟩, ?_⟩
  · intro c; cases c <;> rfl
  · intro c; cases c <;> rfl
  · intro c; cases c <;> rfl
  · intro c; cases c <;> decide

end Sys2Proof.Tests
end

/-! PROOFS. The exposure transfer (Chapter 4): the duty against the exact power, the rung of a ladder, and the trims
that a frame latches. -/

namespace Sys2Proof.Machine

open Sys2Proof

/-! ## The binary search of the duty -/

/-- `p` holds at `r` and fails one past it. -/
structure HoldsLastAt (p : Nat → Prop) (r : Nat) : Prop where
  holds : p r
  fails : ¬ p (r + 1)

/-- For a `p` that holds below wherever it holds, the last point is the bound of all where it holds. -/
theorem HoldsLastAt.le_iff {p : Nat → Prop} {r : Nat} (h : HoldsLastAt p r) (anti : ∀ m n, m ≤ n → p n → p m)
    (d : Nat) : d ≤ r ↔ p d := by
  constructor
  · exact fun hd => anti d r hd h.holds
  · intro hp
    by_contra hlt
    exact h.fails (anti (r + 1) d (by omega) hp)

/-- Adding the falling powers of two, each where `p` still holds with it, ends at the last point, if `p` held at the
start and failed 2^k past it. -/
theorem foldl_holdsLastAt (p : Nat → Prop) [DecidablePred p] (k d : Nat) (hd : p d) (hk : ¬ p (d + 2 ^ k)) :
    HoldsLastAt p (((List.range k).reverse.map (2 ^ ·)).foldl (fun d b => if p (d + b) then d + b else d) d) := by
  induction k generalizing d with
  | zero => exact ⟨hd, hk⟩
  | succ k ih =>
    simp only [List.range_succ, List.reverse_append, List.reverse_singleton, List.singleton_append, List.map_cons,
      List.foldl_cons]
    split
    · next h => exact ih _ h (by rwa [Nat.add_assoc, ← Nat.two_mul, ← Nat.pow_succ'])
    · next h => exact ih _ hd h

/-! ## The duty (R68) -/

/-- d − 1/2 ≤ 255 × 10^(−q/1000) in whole numbers, as the model compares it (R68); `dutyReached_iff` says it in ℝ. -/
abbrev DutyReached (q d : Nat) : Prop := (2 * d - 1) ^ 1000 * 10 ^ q ≤ 510 ^ 1000

theorem DutyReached.anti {q d q' d' : Nat} (h : DutyReached q' d') (hq : q ≤ q') (hd : d ≤ d') : DutyReached q d := by
  have hm : 2 * d - 1 ≤ 2 * d' - 1 := by omega
  calc (2 * d - 1) ^ 1000 * 10 ^ q ≤ (2 * d' - 1) ^ 1000 * 10 ^ q' := by gcongr; decide
    _ ≤ 510 ^ 1000 := h

theorem dutyReached_zero (q : Nat) : DutyReached q 0 :=
  calc (2 * 0 - 1) ^ 1000 * 10 ^ q = 0 := by rw [Nat.mul_zero, Nat.zero_sub, zero_pow (by decide), Nat.zero_mul]
    _ ≤ 510 ^ 1000 := Nat.zero_le _

/-- A duty is reached where a k-th part of its comparison holds with 10^q weakened to (u/v)^k. -/
theorem dutyReached_of_part {q d : Nat} (m a k u v : Nat) (hm : 2 * d - 1 = m) (hk : a * k = 1000) (hv : 0 < v)
    (hpart : m ^ a * u ≤ 510 ^ a * v) (hten : 10 ^ q * v ^ k ≤ u ^ k) : DutyReached q d := by
  rw [DutyReached, hm, ← hk]
  refine le_of_mul_le_mul_right ?_ (pow_pos hv k)
  calc m ^ (a * k) * 10 ^ q * v ^ k = m ^ (a * k) * (10 ^ q * v ^ k) := mul_assoc _ _ _
    _ ≤ m ^ (a * k) * u ^ k := by gcongr
    _ = (m ^ a * u) ^ k := by rw [pow_mul, mul_pow]
    _ ≤ (510 ^ a * v) ^ k := by gcongr
    _ = 510 ^ (a * k) * v ^ k := by rw [pow_mul, mul_pow]

/-- A duty is not reached where a k-th part of its comparison fails with 10^q strengthened to (u/v)^k. -/
theorem not_dutyReached_of_part {q d : Nat} (m a k u v : Nat) (hm : 2 * d - 1 = m) (hk : a * k = 1000)
    (hpart : 510 ^ a * v < m ^ a * u) (hten : u ^ k ≤ 10 ^ q * v ^ k) : ¬ DutyReached q d := by
  rw [DutyReached, hm, ← hk, not_le]
  have hk0 : k ≠ 0 := by rintro rfl; simp at hk
  refine lt_of_mul_lt_mul_right ?_ (Nat.zero_le (v ^ k))
  calc 510 ^ (a * k) * v ^ k = (510 ^ a * v) ^ k := by rw [pow_mul, mul_pow]
    _ < (m ^ a * u) ^ k := by gcongr
    _ = m ^ (a * k) * u ^ k := by rw [pow_mul, mul_pow]
    _ ≤ m ^ (a * k) * (10 ^ q * v ^ k) := by gcongr
    _ = m ^ (a * k) * 10 ^ q * v ^ k := (mul_assoc _ _ _).symm

/-- No duty passes 255, not even at residual 0. -/
theorem not_dutyReached_of_256_le (q : Nat) {d : Nat} (hd : 256 ≤ d) : ¬ DutyReached q d := fun h =>
  not_dutyReached_of_part 511 1 1000 1 1 (by decide) (by decide) (by decide) (by simp) (h.anti (Nat.zero_le q) hd)

/-- The duty is found by eight halving steps (R68). -/
theorem duty_eq_foldl (q : Nat) :
    duty q = ((List.range 8).reverse.map (2 ^ ·)).foldl (fun d b => if DutyReached q (d + b) then d + b else d) 0 := by
  have hsteps : (List.range 8).reverse.map (2 ^ ·) = [128, 64, 32, 16, 8, 4, 2, 1] := rfl
  rw [hsteps, duty]

/-- The duty is the largest that the exact power reaches (R68). -/
theorem duty_holdsLastAt (q : Nat) : HoldsLastAt (DutyReached q) (duty q) := by
  rw [duty_eq_foldl]
  exact foldl_holdsLastAt (DutyReached q) 8 0 (dutyReached_zero q) (not_dutyReached_of_256_le q (by decide))

theorem le_duty_iff (q d : Nat) : d ≤ duty q ↔ DutyReached q d :=
  (duty_holdsLastAt q).le_iff (fun _ _ hd h => h.anti (le_refl q) hd) d

theorem duty_anti {q q' : Nat} (h : q ≤ q') : duty q' ≤ duty q :=
  (le_duty_iff q _).2 ((duty_holdsLastAt q').holds.anti h (le_refl _))

/-- A duty is the largest reached where it is reached and the next is not. -/
theorem duty_eq_of_reached {q d : Nat} (h : DutyReached q d) (hn : ¬ DutyReached q (d + 1)) : duty q = d := by
  rw [← le_duty_iff] at h hn
  omega

theorem duty_zero : duty 0 = 255 :=
  duty_eq_of_reached (dutyReached_of_part 509 1 1000 1 1 (by decide) (by decide) (by decide) (by decide) (by simp))
    (not_dutyReached_of_256_le 0 (by decide))

/-- Ten lies below the 1000th power of 510/507 and above that of 510/509: (3/2)^10 and (5/4)^10 stand between. -/
theorem duty_one : duty 1 = 254 :=
  duty_eq_of_reached
    (dutyReached_of_part 507 100 10 3 2 (by decide) (by decide) (by decide) (by norm_num) (by norm_num))
    (not_dutyReached_of_part 509 100 10 5 4 (by decide) (by decide) (by norm_num) (by norm_num))

/-- At residual 1000 the exact power is 25.5, half a tick below 26. -/
theorem duty_1000 : duty 1000 = 26 :=
  duty_eq_of_reached
    (dutyReached_of_part 51 1 1000 10 1 (by decide) (by decide) (by decide) (by decide) (by rw [one_pow, mul_one]))
    (not_dutyReached_of_part 53 1 1000 10 1 (by decide) (by decide) (by decide) (by rw [one_pow, mul_one]))

/-- Up to residual 300, three tenths of a decade, the exact power is at least half of 255, as 10^3 is below 2^10. -/
theorem dutyReached_300 : DutyReached 300 128 :=
  dutyReached_of_part 255 10 100 (10 ^ 3) 1 (by decide) (by decide) (by decide) (by norm_num)
    (by rw [one_pow, mul_one, ← pow_mul])

/-- Duty 255 is that of residual 0 alone. -/
theorem eq_zero_of_duty_eq_255 {q : Nat} (h : duty q = 255) : q = 0 := by
  by_contra hq
  have h1 : duty q ≤ duty 1 := duty_anti (by omega)
  rw [duty_one] at h1
  omega

/-- The 1000th power of twice the exact power of residual `q` (R68). -/
theorem exactPower_pow (q : Nat) : (2 * (255 * (10 : ℝ) ^ (-(q : ℝ) / 1000))) ^ 1000 * 10 ^ q = 510 ^ 1000 := by
  have h10 : ((10 : ℝ) ^ (-(q : ℝ) / 1000)) ^ 1000 * 10 ^ q = 1 := by
    rw [← Real.rpow_natCast, ← Real.rpow_mul (by norm_num), ← Real.rpow_natCast 10 q, ← Real.rpow_add (by norm_num)]
    norm_num
  rw [← mul_assoc, mul_pow, mul_assoc, h10]
  norm_num

/-- A positive duty less one half is compared with the exact power as their 1000th powers are (R68). -/
theorem dutyReached_iff (q : Nat) {d : Nat} (hd : 1 ≤ d) :
    DutyReached q d ↔ (d : ℝ) - 1 / 2 ≤ 255 * (10 : ℝ) ^ (-(q : ℝ) / 1000) := by
  have hv : (0 : ℝ) < 255 * (10 : ℝ) ^ (-(q : ℝ) / 1000) := by positivity
  have hd' : (1 : ℝ) ≤ d := by exact_mod_cast hd
  have hcast : ((2 * d - 1 : Nat) : ℝ) = 2 * d - 1 := by push_cast [show 1 ≤ 2 * d by omega]; ring
  calc DutyReached q d
      ↔ (((2 * d - 1) ^ 1000 * 10 ^ q : Nat) : ℝ) ≤ ((510 ^ 1000 : Nat) : ℝ) := Nat.cast_le.symm
    _ ↔ (2 * (d : ℝ) - 1) ^ 1000 * 10 ^ q ≤ (2 * (255 * (10 : ℝ) ^ (-(q : ℝ) / 1000))) ^ 1000 * 10 ^ q := by
        rw [exactPower_pow, Nat.cast_mul, Nat.cast_pow, hcast, Nat.cast_pow, Nat.cast_pow, Nat.cast_ofNat,
          Nat.cast_ofNat]
    _ ↔ 2 * (d : ℝ) - 1 ≤ 2 * (255 * (10 : ℝ) ^ (-(q : ℝ) / 1000)) := by
        rw [mul_le_mul_iff_of_pos_right (by positivity),
          pow_le_pow_iff_left₀ (by linarith) (by linarith) (by norm_num)]
    _ ↔ (d : ℝ) - 1 / 2 ≤ 255 * (10 : ℝ) ^ (-(q : ℝ) / 1000) := by constructor <;> intro h <;> linarith

/-- An odd number's power times a power of ten is a power of 510 only where the factors 2 agree. -/
theorem exponent_eq_of_halfway {m n q : Nat} (hm : ¬ 2 ∣ m) (h : m ^ n * 10 ^ q = 510 ^ n) : q = n := by
  have twice : ∀ k : Nat, ¬ 2 ∣ k → (2 * k).factorization 2 = 1 := by
    intro k hk
    have hk0 : k ≠ 0 := by omega
    simp [Nat.factorization_mul (by decide : (2 : Nat) ≠ 0) hk0, Nat.prime_two.factorization,
      Nat.factorization_eq_zero_of_not_dvd hk]
  have h10 : (10 : Nat).factorization 2 = 1 := twice 5 (by decide)
  have h510 : (510 : Nat).factorization 2 = 1 := twice 255 (by decide)
  have hmn : m ^ n ≠ 0 := pow_ne_zero _ (by omega)
  have h2 : (m ^ n * 10 ^ q).factorization 2 = (510 ^ n).factorization 2 := by rw [h]
  simpa [Nat.factorization_mul hmn, Nat.factorization_eq_zero_of_not_dvd hm, h10, h510] using h2

/-- The exact power is half a tick off a whole duty only at residual 1000 (R68). -/
theorem eq_1000_of_halfway {q d : Nat} (hd : 1 ≤ d)
    (h : (d : ℝ) - 1 / 2 = 255 * (10 : ℝ) ^ (-(q : ℝ) / 1000)) : q = 1000 := by
  refine exponent_eq_of_halfway (m := 2 * d - 1) (by omega) ?_
  have hcast : ((2 * d - 1 : Nat) : ℝ) = 2 * (255 * (10 : ℝ) ^ (-(q : ℝ) / 1000)) := by
    push_cast [show 1 ≤ 2 * d by omega]
    linarith
  have hreal : ((2 * d - 1 : Nat) : ℝ) ^ 1000 * 10 ^ q = 510 ^ 1000 := by rw [hcast, exactPower_pow]
  refine Nat.cast_injective (R := ℝ) ?_
  rw [Nat.cast_mul, Nat.cast_pow, Nat.cast_pow, Nat.cast_pow, Nat.cast_ofNat, Nat.cast_ofNat, hreal]

/-! ## The rung (R66) -/

/-- A ladder is spaced: its powers strictly decrease, by at most 300 mL from rung to rung (R38). -/
def Spaced (rungs : List Rung) : Prop :=
  ∀ (i : Nat) (x y : Rung), rungs[i]? = some x → rungs[i + 1]? = some y → y.power < x.power ∧ x.power - y.power ≤ 300

theorem chooseRung_cons (e k : Nat) (g : Rung) (rest : List Rung) :
    chooseRung e k (g :: rest) = if e ≤ g.power then some ((chooseRung e (k + 1) rest).getD (k, g)) else none := rfl

/-- No rung is chosen where the first does not reach the exposure (R67). -/
theorem chooseRung_eq_none_iff (e k : Nat) (rungs : List Rung) :
    chooseRung e k rungs = none ↔ ∀ x, rungs[0]? = some x → x.power < e := by
  cases rungs with
  | nil => simp [chooseRung]
  | cons g rest => simp [chooseRung_cons]

/-- The number of a chosen rung is not below the first's. -/
theorem le_of_chooseRung {e k r : Nat} {g : Rung} {rungs : List Rung} (h : chooseRung e k rungs = some (r, g)) :
    k ≤ r := by
  induction rungs generalizing k with
  | nil => simp [chooseRung] at h
  | cons x rest ih =>
    rw [chooseRung_cons] at h
    split at h
    · cases hr : chooseRung e (k + 1) rest with
      | none => simp [hr] at h; omega
      | some c =>
        have hc : c = (r, g) := by simpa [hr] using h
        have := ih (hc ▸ hr)
        omega
    · simp at h

/-- The rung chosen ends the run of rungs, from the first on, that reach the exposure (R66). -/
theorem chooseRung_eq_some_iff (e k n : Nat) (g : Rung) (rungs : List Rung) :
    chooseRung e k rungs = some (k + n, g) ↔
      rungs[n]? = some g ∧ (∀ i ≤ n, ∀ x, rungs[i]? = some x → e ≤ x.power) ∧
        ∀ x, rungs[n + 1]? = some x → x.power < e := by
  induction rungs generalizing k n with
  | nil => simp [chooseRung]
  | cons h t ih =>
    rw [chooseRung_cons]
    cases n with
    | zero =>
      have hlast : (chooseRung e (k + 1) t).getD (k, h) = (k, g) ↔ h = g ∧ chooseRung e (k + 1) t = none := by
        cases hr : chooseRung e (k + 1) t with
        | none => simp
        | some c =>
          have hle : k + 1 ≤ c.1 := le_of_chooseRung (r := c.1) (g := c.2) hr
          have hne : c ≠ (k, g) := by
            rintro rfl
            omega
          simp [hne]
      simp only [Nat.add_zero, Option.ite_none_right_eq_some, Option.some.injEq, hlast, chooseRung_eq_none_iff,
        Nat.le_zero, forall_eq, forall_eq', List.getElem?_cons_zero, List.getElem?_cons_succ]
      tauto
    | succ n =>
      have hgo : (chooseRung e (k + 1) t).getD (k, h) = (k + (n + 1), g) ↔
          chooseRung e (k + 1) t = some (k + 1 + n, g) := by
        rw [Nat.add_right_comm, Nat.add_assoc]
        cases chooseRung e (k + 1) t <;> simp
      have hrun : (∀ i ≤ n + 1, ∀ x, (h :: t)[i]? = some x → e ≤ x.power) ↔
          e ≤ h.power ∧ ∀ i ≤ n, ∀ x, t[i]? = some x → e ≤ x.power := by
        constructor
        · exact fun hall => ⟨hall 0 (by omega) h rfl, fun i hi x hx => hall (i + 1) (by omega) x (by simpa using hx)⟩
        · rintro ⟨h0, hall⟩ i hi x hx
          cases i with
          | zero => cases hx; exact h0
          | succ i => exact hall i (by omega) x (by simpa using hx)
      simp only [Option.ite_none_right_eq_some, Option.some.injEq, hgo, ih, hrun, List.getElem?_cons_succ]
      tauto

/-- On a spaced ladder a rung's power is at least that of any later one. -/
theorem Spaced.power_anti {rungs : List Rung} (hs : Spaced rungs) {i j : Nat} {x y : Rung} (hij : i ≤ j)
    (hx : rungs[i]? = some x) (hy : rungs[j]? = some y) : y.power ≤ x.power := by
  induction j, hij using Nat.le_induction generalizing y with
  | base => rw [Option.some.inj (hx.symm.trans hy)]
  | succ j _ ih =>
    obtain ⟨hlt, -⟩ := List.getElem?_eq_some_iff.1 hy
    have hz : rungs[j]? = some rungs[j] := List.getElem?_eq_getElem (by omega)
    exact le_trans (hs j _ y hz hy).1.le (ih hz)

/-- On a spaced ladder a rung is chosen where it reaches the exposure and the next, where there is one, does not. -/
theorem Spaced.chooseRung_of_next {rungs : List Rung} (hs : Spaced rungs) {e r : Nat} {g : Rung}
    (hg : rungs[r]? = some g) (he : e ≤ g.power) (hnext : ∀ x, rungs[r + 1]? = some x → x.power < e) :
    chooseRung e 0 rungs = some (r, g) := by
  have := (chooseRung_eq_some_iff e 0 r g rungs).2
    ⟨hg, fun i hi x hx => le_trans he (hs.power_anti hi hx hg), hnext⟩
  rwa [Nat.zero_add] at this

/-- What a choice from rung 0 on says of the ladder. -/
theorem chooseRung_spec {e r : Nat} {g : Rung} {rungs : List Rung} (h : chooseRung e 0 rungs = some (r, g)) :
    rungs[r]? = some g ∧ e ≤ g.power ∧ ∀ x, rungs[r + 1]? = some x → x.power < e := by
  rw [← Nat.zero_add r, chooseRung_eq_some_iff] at h
  obtain ⟨hg, hrun, hnext⟩ := h
  exact ⟨hg, hrun r (le_refl r) g hg, hnext⟩

/-- On a spaced ladder the rung chosen is the highest-numbered that reaches the exposure (R66). -/
theorem Spaced.chooseRung_iff_weakest {rungs : List Rung} (hs : Spaced rungs) (e r : Nat) (g : Rung) :
    chooseRung e 0 rungs = some (r, g) ↔
      rungs[r]? = some g ∧ e ≤ g.power ∧ ∀ (i : Nat) (x : Rung), rungs[i]? = some x → e ≤ x.power → i ≤ r := by
  constructor
  · intro h
    obtain ⟨hg, he, hnext⟩ := chooseRung_spec h
    refine ⟨hg, he, fun i x hx hex => ?_⟩
    by_contra hlt
    obtain ⟨hi, -⟩ := List.getElem?_eq_some_iff.1 hx
    have hn : rungs[r + 1]? = some rungs[r + 1] := List.getElem?_eq_getElem (by omega)
    have h1 := hnext _ hn
    have h2 := hs.power_anti (by omega) hn hx
    omega
  · rintro ⟨hg, he, hweak⟩
    refine hs.chooseRung_of_next hg he fun x hx => ?_
    by_contra hlt
    have := hweak (r + 1) x hx (by omega)
    omega

/-- On a spaced ladder the residual below a rung whose next one does not reach the exposure is at most 299 (R66). -/
theorem Spaced.residual_le {rungs : List Rung} (hs : Spaced rungs) {e r : Nat} {g x : Rung}
    (hg : rungs[r]? = some g) (hx : rungs[r + 1]? = some x) (hxe : x.power < e) : g.power - e ≤ 299 := by
  obtain ⟨-, hstep⟩ := hs r g x hg hx
  omega

/-! ## The result on a ladder (R66 to R69) -/

/-- Above rung 0's power the pixel is a power clip (R67). -/
theorem onLadder_of_none {top : Rung} {rest : List Rung} {e : Nat} (clip : Bool)
    (h : chooseRung e 0 (top :: rest) = none) :
    onLadder (top :: rest) e clip = .pulse 0 top.dac 255 clip true false := by
  simp [onLadder, h]

/-- A pixel with a rung has the duty of its residual, raised to 16 (R68, R69). -/
theorem onLadder_of_some {rungs : List Rung} {e r : Nat} {g : Rung} (clip : Bool)
    (h : chooseRung e 0 rungs = some (r, g)) :
    onLadder rungs e clip =
      .pulse r g.dac (max 16 (duty (g.power - e))) clip false (decide (duty (g.power - e) < 16)) := by
  cases rungs with
  | nil => simp [chooseRung] at h
  | cons top rest =>
    simp only [onLadder, h]
    split
    · next hd => simp [hd, hd.le]
    · next hd => simp [hd, Nat.not_lt.1 hd]

/-- Duty 255 is handed on only in a power clip or where the exposure is the rung's power (R68). -/
theorem exact_of_onLadder_255 {rungs : List Rung} {e r dac : Nat} {clip power floor : Bool}
    (h : onLadder rungs e clip = .pulse r dac 255 clip power floor) :
    power = true ∨ ∃ g, rungs[r]? = some g ∧ g.dac = dac ∧ e = g.power := by
  cases hc : chooseRung e 0 rungs with
  | none =>
    cases rungs with
    | nil => simp [onLadder] at h
    | cons top rest =>
      rw [onLadder_of_none clip hc] at h
      injection h with _ _ _ _ hpower
      exact .inl hpower.symm
  | some choice =>
    obtain ⟨n, g⟩ := choice
    obtain ⟨hg, he, -⟩ := chooseRung_spec hc
    rw [onLadder_of_some clip hc] at h
    injection h with hr hdac hticks
    have hq : g.power - e = 0 := eq_zero_of_duty_eq_255 (by omega)
    exact .inr ⟨g, hr ▸ hg, hdac, by omega⟩

/-! ## SET TRIM (R73) -/

@[simp] theorem beSigned_length (i : Int) : (beSigned i).length = 2 := rfl

/-- SET TRIM's owner limits each trim, writes it into its lane's pending trim and answers the three as written (R73). -/
theorem ownSetTrim_beSigned {r g b : Int} (hr : -32768 ≤ r ∧ r < 32768) (hg : -32768 ≤ g ∧ g < 32768)
    (hb : -32768 ≤ b ∧ b < 32768) (s : State) :
    let p : PerColour Int := ⟨max (-500) (min 500 r), max (-500) (min 500 g), max (-500) (min 500 b)⟩
    ownSetTrim (beSigned r ++ beSigned g ++ beSigned b) s =
      (carriedOut (decide (p = ⟨r, g, b⟩)) (beSigned p.red ++ beSigned p.green ++ beSigned p.blue),
       s.withLanes ⟨{ s.lanes.red with pendingTrim := p.red }, { s.lanes.green with pendingTrim := p.green },
         { s.lanes.blue with pendingTrim := p.blue }⟩) := by
  have h0 : sfield (beSigned r ++ beSigned g ++ beSigned b) 0 = r := by
    simpa using sfield_beSigned hr.1 hr.2 [] (beSigned g ++ beSigned b)
  have h2 : sfield (beSigned r ++ beSigned g ++ beSigned b) 2 = g :=
    sfield_beSigned hg.1 hg.2 (beSigned r) (beSigned b)
  have h4 : sfield (beSigned r ++ beSigned g ++ beSigned b) 4 = b := by
    simpa using sfield_beSigned hb.1 hb.2 (beSigned r ++ beSigned g) []
  have hlim : ∀ i : Int, limitInt (-500) 500 i = max (-500) (min 500 i) := fun i => limitInt_eq_max_min (by decide)
  simp only [ownSetTrim, h0, h2, h4, PerColour.map, hlim]
  simp [PerColour.list, PerColour.of, PerColour.get]

/-- SET TRIM that is ready queues its answer and writes the lanes' pending trims (R73). -/
theorem execSetTrim_ready {tag : Nat} {s : State} {r g b : Int} (hr : -32768 ≤ r ∧ r < 32768)
    (hg : -32768 ≤ g ∧ g < 32768) (hb : -32768 ≤ b ∧ b < 32768)
    (h : CommandReady tag 0x18 (beSigned r ++ beSigned g ++ beSigned b) s) :
    let p : PerColour Int := ⟨max (-500) (min 500 r), max (-500) (min 500 g), max (-500) (min 500 b)⟩
    execSetTrim s = .next ((answeredWith tag 0x18 (carriedOut (decide (p = ⟨r, g, b⟩))
        (beSigned p.red ++ beSigned p.green ++ beSigned p.blue)) s).withLanes
      ⟨{ s.lanes.red with pendingTrim := p.red }, { s.lanes.green with pendingTrim := p.green },
       { s.lanes.blue with pendingTrim := p.blue }⟩) := by
  have hlanes : (beginExecution s).lanes = s.lanes := by simp
  rw [execSetTrim, runCommand_ready h 6 ownSetTrim rfl, ownSetTrim_beSigned hr hg hb, hlanes]
  obtain ⟨-, -, -, hfree⟩ := h
  simp only [endWithReply_withLanes, endWithReply_beginExecution _ _ _ _ hfree]

/-! ## RESET UNIT and the lanes (R32, R55, R76) -/

@[simp] theorem resetLane_pendingTrim (l : Lane) : (resetLane l).pendingTrim = l.pendingTrim := rfl

/-- RESET UNIT resets each lane. -/
theorem resetUnit_lanes (tag : Nat) (s : State) : (resetUnit tag s).lanes = s.lanes.map resetLane := by
  simp [resetUnit, resetOwners]

/-- RESET UNIT that is ready executes. -/
theorem execResetUnit_ready {tag : Nat} {s : State} (h : CommandReady tag 0x04 [] s) :
    execResetUnit s = .next (resetUnit tag s) := by
  have hm := h.mayExecute
  obtain ⟨hhead, -⟩ := h
  simp [execResetUnit, hhead, hm]

/-! ## The exposure start and the lanes (R74, R86) -/

@[simp] theorem startLane_trim (n : Fin 2) (l : Lane) : (startLane n l).trim = l.pendingTrim := rfl
@[simp] theorem startLane_pendingTrim (n : Fin 2) (l : Lane) : (startLane n l).pendingTrim = l.pendingTrim := rfl

/-- The exposure start starts each lane with the record's slot. -/
theorem startExposure_lanes (r : FrameRecord) (s : State) :
    (startExposure r s).lanes = s.lanes.map (startLane r.slot) := by
  simp only [startExposure]
  split <;> simp

/-- The oldest record, homed while no measurement runs, starts its exposure (R86). -/
theorem execExposureStart_homed {r : FrameRecord} {rest : List FrameRecord} {s : State}
    (hrec : s.fq.records = r :: rest) (hpos : r.exposure = .positioning) (hstep : r.step = some .homed)
    (hm : s.lmn.measurement = none) : execExposureStart s = .next (conclude (startExposure r s)) := by
  simp [execExposureStart, exposable, oldest_cons hrec, atStep, hpos, hstep, hm]

/-! ## The statements of Chapter 4 -/

/-- The duty of a residual is the exact power rounded half up, and no half is met but at residual 1000 (R68). -/
theorem duty_rounds_half_up (q : Nat) :
    (duty q : ℝ) - 1 / 2 ≤ 255 * (10 : ℝ) ^ (-(q : ℝ) / 1000) ∧
    255 * (10 : ℝ) ^ (-(q : ℝ) / 1000) < (duty q : ℝ) + 1 / 2 ∧
    (q ≠ 1000 → (duty q : ℝ) - 1 / 2 < 255 * (10 : ℝ) ^ (-(q : ℝ) / 1000)) := by
  have hv : (0 : ℝ) < 255 * (10 : ℝ) ^ (-(q : ℝ) / 1000) := by positivity
  have habove : 255 * (10 : ℝ) ^ (-(q : ℝ) / 1000) < (duty q : ℝ) + 1 / 2 := by
    have hnot := (duty_holdsLastAt q).fails
    rw [dutyReached_iff q (by omega)] at hnot
    push_cast at hnot
    linarith
  rcases Nat.eq_zero_or_pos (duty q) with h0 | hpos
  · rw [h0] at habove ⊢
    push_cast at habove ⊢
    exact ⟨by linarith, habove, fun _ => by linarith⟩
  · have hreach := (dutyReached_iff q hpos).1 (duty_holdsLastAt q).holds
    refine ⟨hreach, habove, fun hq => lt_of_le_of_ne hreach fun heq => hq ?_⟩
    exact eq_1000_of_halfway hpos heq

/-- Settles O25: the duty is the largest the exact power reaches, compared through 1000th powers. -/
theorem dutyIsTheExactPowerRoundedHalfUp : Obligations.DutyIsTheExactPowerRoundedHalfUp := by
  refine ⟨fun q _ => ?_, by norm_num, duty_1000, duty_zero, duty_one, fun rungs e clip => ⟨fun r g hc => ?_, ?_⟩⟩
  · obtain ⟨hlow, habove, hstrict⟩ := duty_rounds_half_up q
    refine ⟨hlow, habove, fun hq => hstrict (by omega), fun hq => ?_, eq_zero_of_duty_eq_255⟩
    exact (le_duty_iff q 128).2 (dutyReached_300.anti (by omega) (le_refl _))
  · refine ⟨onLadder_of_some clip hc, fun hs hlt => ?_⟩
    obtain ⟨hg, -, hnext⟩ := chooseRung_spec hc
    have hx : rungs[r + 1]? = some rungs[r + 1] := List.getElem?_eq_getElem hlt
    exact Spaced.residual_le hs hg hx (hnext _ hx)
  · intro r dac power floor _ h
    exact exact_of_onLadder_255 h

/-- Settles O26: the rung chosen ends the run of rungs that reach the exposure, and on a spaced ladder none behind that
run reaches it. -/
theorem rungIsTheWeakestThatReachesTheExposure : Obligations.RungIsTheWeakestThatReachesTheExposure := by
  intro rungs e clip (hs : Spaced rungs)
  refine ⟨hs.chooseRung_iff_weakest e, fun r g hg => ⟨fun hlast he => ?_, fun x hx hxe he => ?_, fun he => ?_⟩, ?_⟩
  · have hnone : rungs[r + 1]? = none := List.getElem?_eq_none (by omega)
    exact ⟨hs.chooseRung_of_next hg he (by simp [hnone]), Nat.zero_le _, Nat.sub_le _ _⟩
  · have hnext : ∀ y, rungs[r + 1]? = some y → y.power < e := fun y hy => by rwa [← Option.some.inj (hx.symm.trans hy)]
    exact ⟨hs.chooseRung_of_next hg he hnext, hs.residual_le hg hx hxe⟩
  · subst he
    have hc := hs.chooseRung_of_next hg (le_refl _) fun x hx => (hs r g x hg hx).1
    rw [onLadder_of_some clip hc, Nat.sub_self, duty_zero]
    rfl
  · rintro top rest rfl hlt
    have hc : chooseRung e 0 (top :: rest) = none := by simpa [chooseRung_eq_none_iff] using hlt
    exact ⟨hc, onLadder_of_none clip hc⟩

/-- Settles O42: SET TRIM writes the pending trims, RESET UNIT keeps them, and the exposure start latches them. -/
theorem setTrimWritesThePendingTrims : Obligations.SetTrimWritesThePendingTrims := by
  intro tag s
  refine ⟨fun r g b hr hr' hg hg' hb hb' h => ?_, fun h => ?_, fun r rest hrec hpos hstep hm => ?_⟩
  · exact execSetTrim_ready ⟨hr, hr'⟩ ⟨hg, hg'⟩ ⟨hb, hb'⟩ h
  · exact ⟨_, execResetUnit_ready h, fun c => by simp [resetUnit_lanes]⟩
  · exact ⟨_, execExposureStart_homed hrec hpos hstep hm, fun c => by simp [startExposure_lanes]⟩

end Sys2Proof.Machine

/-! PROOFS. POLYGON START and the arrival of lock (R120, R122): what a ready POLYGON START answers, and what it leaves of
a STOPPED polygon and of one that runs. -/

namespace Sys2Proof.Machine

open Sys2Proof

/-! ## The data of POLYGON START (R122) -/

@[simp] theorem beBool_false : beBool false = [0x00] := rfl
@[simp] theorem beBool_true : beBool true = [0x01] := rfl

/-- The polygon's data is read from the STU alone. -/
theorem polygonData_congr {s t : State} (h : t.stu = s.stu) : polygonData t = polygonData s := by
  simp only [polygonData, h]

/-- A period that its four bytes hold is sent as it is, behind what stands before the data. -/
theorem append_polygonData_of_lt {s : State} (h : s.stu.lastPeriod < 4294967296) (before : List Byte) :
    before ++ polygonData s =
      before ++ be1 (polygonCode s.stu.polygon) ++ be4 s.stu.glitches ++ be4 s.stu.lastPeriod := by
  rw [polygonData, Nat.min_eq_right (by omega)]
  simp only [List.append_assoc]

/-! ## The end of a step and the POLYGON condition (R26) -/

/-- What ends a step reports the polygon's state in the POLYGON condition. -/
theorem conclude_current_polygon (s : State) : (conclude s).cpr.current.polygon = s.stu.polygon := by
  simp [conclude_current, ownerValues]

/-- A REPLY leaves every part but the CPR and the RTX as it was. -/
theorem sameBut_answeredWith (tag code : Nat) (a : Answer) (s : State) :
    SameBut [.cpr, .rtx] s (answeredWith tag code a s) := by
  intro p hp
  cases p <;> simp_all [samePart]

/-- An update of the STU touches the STU alone. -/
theorem sameBut_withStu (u : Stu) (s : State) : SameBut [.stu] s (s.withStu u) := by
  intro p hp
  cases p <;> simp_all [samePart]

/-- A command that is answered, writes the STU and then ends its step leaves the STU as written, reports its polygon and
the owners' other values, may have a monitor request composed, and changes nothing else. -/
theorem conclude_answeredWith_withStu_spec (tag code : Nat) (a : Answer) (u : Stu) (s : State) :
    let t := conclude ((answeredWith tag code a s).withStu u)
    t.stu = u ∧ t.cpr.current.polygon = u.polygon ∧ Told (answeredWith tag code a s) t ∧ MonitorAsked s t ∧
    SameBut [.cpr, .rtx, .stu, .pfm] s t := by
  have hsame : SameBut [.cpr, .rtx, .stu, .pfm] s ((answeredWith tag code a s).withStu u) :=
    ((sameBut_answeredWith tag code a s).mono (by decide)).trans ((sameBut_withStu u _).mono (by decide))
  exact ⟨by simp, by simp [conclude_current_polygon], told_conclude rfl rfl, monitorAsked_conclude (by simp),
    sameBut_conclude hsame (by decide) (by decide) (by decide)⟩

/-! ## POLYGON START (R122) -/

/-- POLYGON START that is ready starts a STOPPED polygon, answers that it was not running, and ends the step. -/
theorem execPolygonStart_stopped {tag : Nat} {s : State} (h : CommandReady tag 0x28 [] s)
    (hp : s.stu.polygon = .stopped) :
    execPolygonStart s = .next (conclude
      ((answeredWith tag 0x28 (accepted ([0x00] ++ polygonData s)) s).withStu (startedStu (timebase s) s.stu))) := by
  have hdata : polygonData (beginExecution s) = polygonData s := polygonData_congr (by simp)
  have htime : timebase (beginExecution s) = timebase s := by simp [timebase]
  have howner : ownPolygonStart [] (beginExecution s) = (accepted ([0x00] ++ polygonData s),
      conclude ((beginExecution s).withStu (startedStu (timebase s) s.stu))) := by
    simp [ownPolygonStart, hp, hdata, htime]
  rw [execPolygonStart, runCommand_ready h 0 ownPolygonStart rfl, howner]
  obtain ⟨-, -, -, hfree⟩ := h
  simp only [endWithReply_conclude, endWithReply_withStu, endWithReply_beginExecution _ _ _ _ hfree]

/-- POLYGON START that is ready answers already running where the polygon is, and changes nothing else. -/
theorem execPolygonStart_running {tag : Nat} {s : State} (h : CommandReady tag 0x28 [] s)
    (hp : s.stu.polygon ≠ .stopped) :
    execPolygonStart s = .next (answeredWith tag 0x28 (accepted ([0x01] ++ polygonData s)) s) := by
  have hdata : polygonData (beginExecution s) = polygonData s := polygonData_congr (by simp)
  have howner : ownPolygonStart [] (beginExecution s) =
      (accepted ([0x01] ++ polygonData s), beginExecution s) := by
    simp [ownPolygonStart, hp, hdata]
  rw [execPolygonStart, runCommand_ready h 0 ownPolygonStart rfl, howner]
  obtain ⟨-, -, -, hfree⟩ := h
  simp only [endWithReply_beginExecution _ _ _ _ hfree]

/-! ## The arrival of lock (R120) -/

/-- POLYGON_LOCK locks an ACQUIRING polygon whose run count has reached 64. -/
theorem execPolygonLock_due {s : State} (hp : s.stu.polygon = .acquiring) (hrun : 64 ≤ s.stu.runCount) :
    execPolygonLock s = .next (conclude
      (s.withStu { s.stu with polygon := .locked, acquireTimer := none, acquireFault := false })) :=
  if_pos ⟨hp, hrun⟩

/-! ## The statement of POLYGON START -/

/-- Settles O32: a ready POLYGON START takes a STOPPED polygon to ACQUIRING and leaves a running one as it is, and the
arrival of lock is reported. -/
theorem polygonStartAcquiresOrAnswersAlreadyRunning : Obligations.PolygonStartAcquiresOrAnswersAlreadyRunning := by
  refine ⟨fun tag s h hlast => ⟨fun hp => ?_, fun hp => ?_⟩, fun s hp hrun => ?_⟩
  · have hstart := execPolygonStart_stopped h hp
    rw [append_polygonData_of_lt hlast, hp] at hstart
    exact ⟨_, hstart, conclude_answeredWith_withStu_spec tag 0x28 _ _ s⟩
  · have hanswer := execPolygonStart_running h hp
    rw [append_polygonData_of_lt hlast] at hanswer
    exact hanswer
  · exact ⟨_, execPolygonLock_due hp hrun, by simp, by simp [conclude_current_polygon]⟩

end Sys2Proof.Machine

/-! PROOFS. Pulse formation (Chapter 8): the ticks of a pulse with and without the rung guard, the lane after a result is
placed on an equal and on a changed rung, and the rung loaded at line start. -/

namespace Sys2Proof.Machine

open Sys2Proof

/-! ## The ticks of a pulse (R143, R145) -/

/-- Without a change of rung the pulse is centred, whatever the guard. -/
theorem placePulse_unchanged (d g : Nat) : placePulse d g false = ((256 - d) / 2, (256 - d) / 2 + d - 1, false) := rfl

/-- A changed rung's pulse that the guard does not reach is centred. -/
theorem placePulse_of_guard_le {d g : Nat} (h : g ≤ (256 - d) / 2) :
    placePulse d g true = ((256 - d) / 2, (256 - d) / 2 + d - 1, false) := by
  simp [placePulse, h]

/-- A changed rung's pulse that the guard reaches begins at tick `g` where it still ends within the period. -/
theorem placePulse_shifted {d g : Nat} (h : (256 - d) / 2 < g) (hend : g + d - 1 ≤ 255) :
    placePulse d g true = (g, g + d - 1, false) := by
  simp [placePulse, h, hend]

/-- A changed rung's pulse that the guard would move past the period is cut at tick 255. -/
theorem placePulse_cut {d g : Nat} (h : (256 - d) / 2 < g) (hend : 255 < g + d - 1) :
    placePulse d g true = (g, 255, true) := by
  simp [placePulse, h, Nat.not_le.2 hend]

/-- The centred pulse of a lit duty is not empty and lies within the pixel period (R143). -/
theorem centred_within {d : Nat} (hlow : 16 ≤ d) (hhigh : d ≤ 255) :
    (256 - d) / 2 ≤ (256 - d) / 2 + d - 1 ∧ (256 - d) / 2 + d - 1 ≤ 255 := by
  omega

/-! ## A lane after a result is placed (R144 to R146) -/

/-- On a rung that differs from the rung in effect, the rung and its code take effect and the guard applies. -/
theorem placeLane_of_rung_ne {pl : PulseLane} {rung : Nat} (h : pl.rung.map Prod.fst ≠ some rung)
    (g dac d : Nat) (density power floor : Bool) :
    placeLane g pl (.pulse rung dac d density power floor) =
      { pl with
        rung := some (rung, dac)
        amplitude := dac
        pulse := some ((placePulse d g true).1, (placePulse d g true).2.1)
        truncations := if (placePulse d g true).2.2 then bump32 pl.truncations else pl.truncations } := by
  simp only [placeLane, h, ne_eq, not_false_eq_true, decide_true, if_true]

/-- On the rung in effect the pulse is centred, and nothing else of the lane changes. -/
theorem placeLane_of_rung_eq {pl : PulseLane} {rung : Nat} (h : pl.rung.map Prod.fst = some rung)
    (g dac d : Nat) (density power floor : Bool) :
    placeLane g pl (.pulse rung dac d density power floor) =
      { pl with pulse := some ((256 - d) / 2, (256 - d) / 2 + d - 1) } := by
  simp [placeLane, h, placePulse_unchanged]

/-- A line's first rung is loaded with its code before position 0, and nothing else of the lane changes (R144). -/
theorem preload_of_firstRung {s : State} {c : Colour} {width rung dac : Nat}
    (h : firstRung s c width = some (rung, dac)) :
    preload s width c = { s.pfm.lanes.get c with rung := some (rung, dac), amplitude := dac } := by
  simp [preload, h]

/-! ## The statement of the rung guard -/

/-- Settles O43: on a changed rung by where the guard and the shifted end lie; on an equal rung the pulse is centred. -/
theorem rungGuardShiftsOrCutsAChangedRungsPulse : Obligations.RungGuardShiftsOrCutsAChangedRungsPulse := by
  intro g d rung dac x y z pl hlow hhigh hguard
  have hcentred := centred_within hlow hhigh
  refine ⟨fun hne => ?_, fun heq => ?_, rfl, fun s width r A c hfirst => ?_⟩
  · rw [placeLane_of_rung_ne hne]
    refine ⟨rfl, rfl, fun hclear => ?_, fun hreached => ⟨by omega, fun hend => ?_, fun hpast => ?_⟩⟩
    · rw [placePulse_of_guard_le hclear]
      exact ⟨⟨rfl, hcentred⟩, rfl⟩
    · rw [placePulse_shifted hreached hend]
      exact ⟨⟨rfl, by omega, hend⟩, rfl⟩
    · rw [placePulse_cut hreached hpast]
      exact ⟨⟨rfl, by omega, le_refl _⟩, rfl, by omega, by omega⟩
  · rw [placeLane_of_rung_eq heq]
    exact ⟨⟨rfl, hcentred⟩, rfl, rfl, rfl⟩
  · rw [preload_of_firstRung hfirst]
    exact ⟨rfl, rfl⟩

end Sys2Proof.Machine

/-! PROOFS. The drift update (R160, R161): the numbers of one update, the channel it leaves, the DRIFT trigger that it
may signal, and what it changes of the state. -/

namespace Sys2Proof.Machine

open Sys2Proof

/-! ## The numbers of an update (R160) -/

/-- The mean of 16 samples as its halves are counted in 32nds. -/
theorem meanOf16_eq_halves (sum : Int) :
    meanOf16 sum = if 0 ≤ sum then (2 * sum + 16) / 32 else -((2 * (-sum) + 16) / 32) := by
  simp only [meanOf16]
  split <;> omega

/-- A drift that stands at the mean stays; any other moves toward it by at most 2, within the limits. -/
theorem movedDrift_eq_max_min (drift mean : Int) :
    movedDrift drift mean = max (-250) (min 250 (if drift < mean then drift + min 2 (mean - drift)
      else if mean < drift then drift - min 2 (drift - mean) else drift)) := by
  have htoward : (if drift < mean then drift + min 2 (mean - drift) else drift - min 2 (drift - mean)) =
      if drift < mean then drift + min 2 (mean - drift)
      else if mean < drift then drift - min 2 (drift - mean) else drift := by
    split
    · rfl
    · split <;> omega
  rw [movedDrift, limitInt_eq_max_min (by decide), htoward]

theorem movedDrift_within (drift mean : Int) : -250 ≤ movedDrift drift mean ∧ movedDrift drift mean ≤ 250 := by
  rw [movedDrift, limitInt_eq_max_min (by decide)]
  omega

/-- A drift within its range changes by at most 2. -/
theorem movedDrift_near {drift : Int} (mean : Int) (hlow : -250 ≤ drift) (hhigh : drift ≤ 250) :
    movedDrift drift mean - drift ≤ 2 ∧ drift - movedDrift drift mean ≤ 2 := by
  rw [movedDrift, limitInt_eq_max_min (by decide)]
  split <;> omega

/-! ## A channel's update (R160, R161) -/

/-- An update takes the mean as the last mean, moves the drift, judges the flag and empties the accumulator. -/
theorem driftUpdated_eq (limitMl : Nat) (ch : Channel) :
    driftUpdated limitMl ch =
      { ch with drift := movedDrift ch.drift (meanOf16 ch.accSum), lastMean := some (meanOf16 ch.accSum),
                beyond := decide (limitMl < (meanOf16 ch.accSum).natAbs), accCount := 0, accSum := 0 } := rfl

theorem emptyAccumulator_driftUpdated (limitMl : Nat) (ch : Channel) :
    emptyAccumulator (driftUpdated limitMl ch) = driftUpdated limitMl ch := rfl

theorem changeChannel_get (c o : Colour) (f : Channel → Channel) (s : State) :
    (changeChannel c f s).lmn.channels.get o =
      if o = c then f (s.lmn.channels.get c) else s.lmn.channels.get o := by
  simp [changeChannel]

theorem changeChannel_get_self (c : Colour) (f : Channel → Channel) (s : State) :
    (changeChannel c f s).lmn.channels.get c = f (s.lmn.channels.get c) := by
  rw [changeChannel_get, if_pos rfl]

/-- A change of a channel touches the LMN alone. -/
theorem sameBut_changeChannel (c : Colour) (f : Channel → Channel) (s : State) :
    SameBut [.lmn] s (changeChannel c f s) := by
  intro p hp
  cases p <;> simp_all [samePart]

/-! ## A trigger and the channels (R185) -/

/-- Setting the latch empties every accumulator, and changes nothing else of a channel. -/
theorem setBlank_channel (src : TriggerSource) (s : State) (o : Colour) :
    (setBlank src s).lmn.channels.get o = emptyAccumulator (s.lmn.channels.get o) := by
  simp only [setBlank]
  rw [emptyStopped_latched (by simp), (abandonMeasurement_spec _).2.1]
  simp [emptyAccumulator]

/-- A trigger leaves a channel as it is or with its accumulator emptied. -/
theorem trigger_channel (src : TriggerSource) (s : State) (o : Colour) :
    (trigger src s).lmn.channels.get o = s.lmn.channels.get o ∨
    (trigger src s).lmn.channels.get o = emptyAccumulator (s.lmn.channels.get o) := by
  simp only [trigger]
  split
  · split
    · exact .inl rfl
    · exact .inr (setBlank_channel src s o)
  · exact .inl rfl

theorem signalDrift_channel (before : PerColour Channel) (s : State) (c o : Colour) :
    (signalDrift before s c).lmn.channels.get o = s.lmn.channels.get o ∨
    (signalDrift before s c).lmn.channels.get o = emptyAccumulator (s.lmn.channels.get o) := by
  simp only [signalDrift]
  split
  · exact trigger_channel .drift s o
  · exact .inl rfl

theorem signalDrift_drift (before : PerColour Channel) (s : State) (c o : Colour) :
    ((signalDrift before s c).lmn.channels.get o).drift = (s.lmn.channels.get o).drift := by
  rcases signalDrift_channel before s c o with h | h <;> rw [h]
  rfl

/-! ## The DRIFT trigger (R161, R184) -/

/-- DRIFT is enabled where bit 4 of the mask is set. -/
theorem sourceEnabled_drift (b : Blc) : sourceEnabled b .drift = b.mask.getLsbD 4 := rfl

/-- A flag that has gone from clear to set, with DRIFT enabled, is the trigger. -/
theorem signalDrift_blanked {before : PerColour Channel} {s : State} {c : Colour}
    (hclear : (before.get c).beyond = false) (hset : (s.lmn.channels.get c).beyond = true)
    (hmask : s.blc.mask.getLsbD 4 = true) : Blanked 0x10 .blanked s (signalDrift before s c) := by
  rw [signalDrift, if_pos ⟨hclear, hset⟩]
  exact (trigger_spec .drift s).2.2 hmask

/-- Without such a flag, or with DRIFT disabled, nothing is signalled. -/
theorem signalDrift_eq_self {before : PerColour Channel} {s : State} {c : Colour}
    (h : ¬ ((before.get c).beyond = false ∧ (s.lmn.channels.get c).beyond = true ∧ s.blc.mask.getLsbD 4 = true)) :
    signalDrift before s c = s := by
  rw [signalDrift]
  split
  · next hrises =>
    obtain ⟨hclear, hset⟩ := hrises
    exact (trigger_spec .drift s).2.1 (Bool.eq_false_iff.2 fun hmask => h ⟨hclear, hset, hmask⟩)
  · rfl

/-! ## DRIFT_UPDATE (R160, R161) -/

section

variable (c : Colour) (s : State)

/-- With 16 samples the channel is updated, the trigger is signalled where its flag rises, and the step ends. -/
theorem exec_driftUpdate_due (hdue : 16 ≤ (s.lmn.channels.get c).accCount) :
    exec (.driftUpdate c) s =
      .next (conclude (signalDrift s.lmn.channels (changeChannel c (driftUpdated s.lmn.driftLimit) s) c)) :=
  if_pos hdue

/-- The updated channel is left as updated: the trigger finds its accumulator already empty. -/
theorem signalDrift_changeChannel_get_self (limitMl : Nat) :
    (signalDrift s.lmn.channels (changeChannel c (driftUpdated limitMl) s) c).lmn.channels.get c =
      driftUpdated limitMl (s.lmn.channels.get c) := by
  rcases signalDrift_channel s.lmn.channels (changeChannel c (driftUpdated limitMl) s) c c with h | h
  · rw [h, changeChannel_get_self]
  · rw [h, changeChannel_get_self, emptyAccumulator_driftUpdated]

/-- No other colour's drift is moved. -/
theorem signalDrift_changeChannel_drift (f : Channel → Channel) (o : Colour) :
    ((signalDrift s.lmn.channels (changeChannel c f s) c).lmn.channels.get o).drift =
      if o = c then (f (s.lmn.channels.get c)).drift else (s.lmn.channels.get o).drift := by
  rw [signalDrift_drift, changeChannel_get, apply_ite Channel.drift]

/-- The trigger of a changed channel blanks as from the state before the change. -/
theorem signalDrift_changeChannel_blanked {f : Channel → Channel}
    (hclear : (s.lmn.channels.get c).beyond = false) (hset : (f (s.lmn.channels.get c)).beyond = true)
    (hmask : s.blc.mask.getLsbD 4 = true) :
    Blanked 0x10 .blanked s (signalDrift s.lmn.channels (changeChannel c f s) c) := by
  have hblanked : Blanked 0x10 .blanked (changeChannel c f s) (signalDrift s.lmn.channels (changeChannel c f s) c) :=
    signalDrift_blanked hclear (by rw [changeChannel_get_self, hset]) hmask
  exact hblanked.of_eq rfl rfl (fun _ => rfl) rfl rfl rfl rfl (.of_eq rfl)

/-- A channel that is changed without a trigger is all that the step changes, but for what ends it. -/
theorem conclude_changeChannel_spec (f : Channel → Channel) :
    let t := conclude (changeChannel c f s)
    t.lmn = { s.lmn with channels := s.lmn.channels.set c (f (s.lmn.channels.get c)) } ∧ Told s t ∧
    MonitorAsked s t ∧ SameBut [.lmn, .pfm, .cpr, .rtx] s t :=
  ⟨by simp [changeChannel], told_conclude rfl rfl, monitorAsked_conclude rfl,
    sameBut_conclude ((sameBut_changeChannel c f s).mono (by decide)) (by decide) (by decide) (by decide)⟩

end

/-! ## The statement of the drift update -/

/-- Settles O48: the channel is the updated one whether or not the trigger blanks, and its numbers are those of R160. -/
theorem driftUpdateMovesTheCorrectionByAtMostTwo : Obligations.DriftUpdateMovesTheCorrectionByAtMostTwo := by
  intro c s hdue ch mean moved drift beyond after triggered
  have hmean : mean = meanOf16 ch.accSum := (meanOf16_eq_halves ch.accSum).symm
  have hdrift : drift = movedDrift ch.drift mean := (movedDrift_eq_max_min ch.drift mean).symm
  have hafter : driftUpdated s.lmn.driftLimit ch = after := by rw [driftUpdated_eq, ← hmean, ← hdrift]
  refine ⟨_, exec_driftUpdate_due c s hdue, ?_, fun o => ?_, ?_, fun hlow hhigh => ?_, fun h => ?_, fun h => ?_,
    (conclude_spec _).1.2⟩
  · simpa using (signalDrift_changeChannel_get_self c s s.lmn.driftLimit).trans hafter
  · have hmoved := signalDrift_changeChannel_drift c s (driftUpdated s.lmn.driftLimit) o
    rw [hafter] at hmoved
    simpa using hmoved
  · rw [hdrift]
    exact movedDrift_within ch.drift mean
  · rw [hdrift]
    exact movedDrift_near mean hlow hhigh
  · obtain ⟨hclear, hset, hmask⟩ := h
    exact (signalDrift_changeChannel_blanked c s hclear (by rw [hafter]; exact hset) hmask).conclude
  · rw [signalDrift_eq_self (by rw [changeChannel_get_self, hafter]; exact h), ← hafter]
    exact conclude_changeChannel_spec c s (driftUpdated s.lmn.driftLimit)

end Sys2Proof.Machine
